-- ==== Sys2Proof/Word.lean ====
section
/-! DEFINITION. The word types of LRN565 (spec/00_scope.md R9). A bit vector stands where the spec speaks of
the bits of a register, a cell or a command word; all stage arithmetic is done in `Int` (R7). -/

namespace Sys2Proof

/-- A 32-bit word of the host port: register contents, data-port words, command words (R20, R72, R100). -/
abbrev Word := BitVec 32

/-- A cell of `SRC` or `CNV`: red in bits 23:16, green in 15:8, blue in 7:0 (R105). -/
abbrev Pixel := BitVec 24

/-- A cell of `OUT`: red in bits 15:11, green in 10:5, blue in 4:0 (R106). -/
abbrev Packed := BitVec 16

/-- A cell of `GLUT` (R48, R110). -/
abbrev Byte := BitVec 8

/-- A byte offset into the 4096-byte host window (R70). -/
abbrev Offset := BitVec 12

end Sys2Proof
end

