-- ==== Sys2Proof/Syntax.lean ====
section
/-! DEFINITION. The twelve commands (spec/30_encoding.md R101), one constructor per row of
spec/opcode_table.json. -/

namespace Sys2Proof

/-- A command of the block. Every operand of a stage comes from a register or from `GLUT` (R102); the one operand
a command word carries is the operand field of `RUN`. -/
inductive Instr where
  /-- `NOP` (R243). -/
  | nop
  /-- `COMPOSE`, stage 1 (R130). -/
  | compose
  /-- `CONTRAST`, stage 2 (R164). -/
  | contrast
  /-- `BRIGHT`, stage 3 (R165). -/
  | bright
  /-- `COLOR`, stage 4 (R166). -/
  | color
  /-- `SHARP`, stage 5 (R168). -/
  | sharp
  /-- `DENOISE`, stage 6 (R171). -/
  | denoise
  /-- `UNSHARP`, stage 7 (R172). -/
  | unsharp
  /-- `GAMMA`, stage 8 (R200). -/
  | gamma
  /-- `DITHER`, stage 9 (R210). -/
  | dither
  /-- `RUN` (R244). `operand` is bits 23:0 of the word as the host writes them: `RSV` in 23:9, which must be 0
  (R100; checked by `Instr.wellFormed`), and `MASK` in 8:0. -/
  | run (operand : BitVec 24)
  /-- `SRST` (R245). -/
  | srst
deriving DecidableEq, Repr

/-- `RSV` of the operand field, bits 23:9 of the word (R100). -/
def operandReserved (operand : BitVec 24) : BitVec 15 := operand.extractLsb' 9 15

/-- `MASK` of the operand field, bits 8:0 of the word (R100, R102). -/
def operandMask (operand : BitVec 24) : BitVec 9 := operand.extractLsb' 0 9

end Sys2Proof
end

