-- ==== Sys2Proof/WellFormed.lean ====
section
/-! DEFINITION. Which terms of `Instr` are commands (spec/30_encoding.md R100, R103). -/

namespace Sys2Proof

/-- The one check a term can fail: `RUN` with a bit of `RSV` set is not a command but an illegal word (R103). The
other commands carry no operand. -/
def Instr.wellFormed : Instr → Bool
  | .run operand => operandReserved operand == 0
  | .nop | .compose | .contrast | .bright | .color | .sharp | .denoise | .unsharp | .gamma | .dither | .srst => true

end Sys2Proof
end

