-- ==== Sys2Proof/Decode.lean ====
section
/-! DEFINITION. The command word (spec/30_encoding.md R100 to R103): a decoder total on every 32-bit word, which
rejects by name, and after it the encoder, written from the same opcode map. -/

namespace Sys2Proof

/-- `OPC`, bits 31:24 of a command word (R100). -/
def opcodeField (w : Word) : BitVec 8 := w.extractLsb' 24 8

/-- Bits 23:0 of a command word: `RSV` and `MASK` (R100). -/
def operandField (w : Word) : BitVec 24 := w.extractLsb' 0 24

/-- The two ways a word is illegal (R103). -/
inductive Illegal where
  /-- `OPC` is none of 0x00 to 0x09, 0x10, 0x7F. -/
  | unknownOpcode
  /-- `OPC` is legal and a bit that its row fixes to 0 is set. -/
  | operandBits
deriving DecidableEq, Repr

/-- What the decoder answers: one of the twelve commands, or an illegal word. -/
inductive Decoded where
  | instr (i : Instr)
  | illegal (why : Illegal)
deriving DecidableEq, Repr

/-- A command whose word has bits 23:0 all zero (R101: the rows with mask 0xFFFFFFFF). -/
def decodePlain (operand : BitVec 24) (i : Instr) : Decoded :=
  if operand = 0 then .instr i else .illegal .operandBits

/-- The opcode map of R101; every word is one of the twelve commands or illegal (R103). -/
def decode (w : Word) : Decoded :=
  let operand := operandField w
  match (opcodeField w).toNat with
  | 0x00 => decodePlain operand .nop
  | 0x01 => decodePlain operand .compose
  | 0x02 => decodePlain operand .contrast
  | 0x03 => decodePlain operand .bright
  | 0x04 => decodePlain operand .color
  | 0x05 => decodePlain operand .sharp
  | 0x06 => decodePlain operand .denoise
  | 0x07 => decodePlain operand .unsharp
  | 0x08 => decodePlain operand .gamma
  | 0x09 => decodePlain operand .dither
  | 0x10 => if operandReserved operand = 0 then .instr (.run operand) else .illegal .operandBits
  | 0x7F => decodePlain operand .srst
  | _ => .illegal .unknownOpcode

/-- The command word of a term: `OPC` above the operand field (R100, R101, R112). -/
def encode : Instr → Word
  | .nop => 0x00000000#32
  | .compose => 0x01000000#32
  | .contrast => 0x02000000#32
  | .bright => 0x03000000#32
  | .color => 0x04000000#32
  | .sharp => 0x05000000#32
  | .denoise => 0x06000000#32
  | .unsharp => 0x07000000#32
  | .gamma => 0x08000000#32
  | .dither => 0x09000000#32
  | .run operand => 0x10#8 ++ operand
  | .srst => 0x7F000000#32

/-- The instruction the decoder reads from an opcode-table word of `nbits` bits; the bits above `nbits` are 0. A
command is one 32-bit word that moves whole (R72, R100), so the word itself is what the decoder is given. -/
def decodeTableWord (nbits w : Nat) : Option Instr :=
  match decode (BitVec.ofNat 32 (w % 2 ^ nbits)) with
  | .instr i => some i
  | .illegal _ => none

end Sys2Proof
end

