-- ==== Sys2Proof/Machine/State.lean ====
section
/-! DEFINITION. The state of LRN565 (spec/10_state.md R20), the reasons a step can stop, and the state after reset
(R54). Everything is plain data. The model's own three fields stand last in `State`. -/

namespace Sys2Proof.Machine

/-- The nine stages, in pipeline order (R104). -/
inductive Stage where
  | compose
  | contrast
  | bright
  | color
  | sharp
  | denoise
  | unsharp
  | gamma
  | dither
deriving DecidableEq, Repr

/-- The errors the block records (R261). -/
inductive ErrorCode where
  | illegalCmd
  | invalidInput
  | badDim
  | degenerate
  | kernel
deriving DecidableEq, Repr

/-- The size of a transfer the platform bus may express (R72); only `word` is a transaction of the block. -/
inductive Width where
  | byte
  | half
  | word
  | wider
deriving DecidableEq, Repr

/-- One turn of one agent: a host transaction (R70), the engine being scheduled (R241, R250), or the platform
applying the hardware reset input (R300). -/
inductive Turn where
  | read (width : Width) (a : Offset)
  | write (width : Width) (a : Offset) (d : Word)
  | engine
  | hardReset
deriving DecidableEq, Repr

/-- An entry of the list of what happens next (log 1). `command w` is the host's `cmd` followed by `wait` (R113): a
`CMD` write and, if it is accepted, the engine's steps until `BUSY = 0` (R241 lets a model fuse them; log 3). `wait`
is the host's polling loop (R113; log 19). -/
inductive Input where
  | command (w : Word)
  | turn (t : Turn)
  | wait
deriving DecidableEq, Repr

/-- What `HostRead` returns (R70, R72). -/
inductive Response where
  | data (d : Word)
  | busError
deriving DecidableEq, Repr

/-- A memory of `w`-bit cells: the cells that differ from what an unlisted index reads as, by strictly rising index.
In `SRC`, `CNV` and `OUT` an unlisted cell is unwritten (R55); in `GLUT` it holds its reset value (R54). -/
abbrev Mem (w : Nat) := List (Nat × BitVec w)

/-- The memories a stage reads (R88); used to name what a fault is about. -/
inductive Memory where
  | src
  | cnv
deriving DecidableEq, Repr

/-- The complete state (R20). -/
structure State where
  /-- `SRC_DIM.SRC_W` (R21). -/
  srcW : BitVec 16
  /-- `SRC_DIM.SRC_H` (R21). -/
  srcH : BitVec 16
  /-- `CNV_DIM.W` (R22). -/
  canvasW : BitVec 16
  /-- `CNV_DIM.H` (R22). -/
  canvasH : BitVec 16
  /-- `CONTRAST.F` (R23). -/
  contrast : BitVec 12
  /-- `BRIGHT.F` (R24). -/
  bright : BitVec 12
  /-- `COLOR.F` (R25). -/
  color : BitVec 12
  /-- `SHARP.F` (R26). -/
  sharp : BitVec 12
  /-- `USM.AMT` (R27). -/
  usmAmt : BitVec 12
  /-- `USM.THR` (R27). -/
  usmThr : BitVec 8
  /-- `STATUS.BUSY` (R31, R39). -/
  busy : Bool
  /-- `STATUS.DONE` (R31, R40). -/
  done : Bool
  /-- `STATUS.ERR` (R31, R41). -/
  err : Bool
  /-- `STATUS.OVR` (R31, R42). -/
  ovr : Bool
  /-- `STATUS.STAGE` (R31, R43). -/
  stage : BitVec 4
  /-- `STATUS.ERRCODE` (R31, R41). -/
  errCode : BitVec 8
  /-- `STATUS.ERRSTAGE` (R31, R41). -/
  errStage : BitVec 4
  /-- `INT_EN.DONE_IE` (R32). -/
  doneIe : Bool
  /-- `INT_EN.ERR_IE` (R32). -/
  errIe : Bool
  /-- `RSZ_DIM.NEW_W` (R33). -/
  newW : BitVec 16
  /-- `RSZ_DIM.NEW_H` (R33). -/
  newH : BitVec 16
  /-- `RSZ_OFF.OFF_X` (R34). -/
  offX : BitVec 16
  /-- `RSZ_OFF.OFF_Y` (R34). -/
  offY : BitVec 16
  /-- `MEAN.M` (R35). -/
  mean : BitVec 8
  /-- `SRC_PTR.IDX` (R36): `P_PTR_BITS` bits, 24 as decided; this and the next two have room for 32, and the bits above
  the field are 0 in every legal state (log 8). -/
  srcPtr : Word
  /-- `CNV_PTR.IDX` (R37). -/
  cnvPtr : Word
  /-- `OUT_PTR.IDX` (R38). -/
  outPtr : Word
  /-- `CUR`, the command word accepted last; hidden (R43). -/
  cur : Word
  /-- `PEND`, bit `s-1` set when stage `s` is still to run; hidden (R43). -/
  pend : BitVec 9
  /-- `SRC` (R45). -/
  src : Mem 24
  /-- `CNV` (R46). -/
  cnv : Mem 24
  /-- `OUT` (R47). -/
  out : Mem 16
  /-- `GLUT` (R48). -/
  glut : List Host.Cell
  /-- The model's own (log 1): what the host, the schedule and the platform do next, first entry first. -/
  input : List Input
  /-- The model's own (log 11): the answer of the last `HostRead`. -/
  resp : Option Response
  /-- The model's own (log 5): how many free values have been drawn. -/
  freeCount : Nat
deriving DecidableEq, Repr

/-- Why the model stops without a next state. The block's own errors (R261) are not among them: they are next
states with `ERR` set. -/
inductive Fault where
  /-- Raised by a stage, after its pre-checks, when a cell it reads has not been written: by `COMPOSE` for `SRC`, by
  stages 2 to 9 for `CNV` (R55, R89; U1: "the stage read must fault"). Safe: the hardware goes on with an
  unspecified value (log 4). -/
  | unwrittenCell (m : Memory)
deriving DecidableEq, Repr

/-- Instructions without a meaning. -/
inductive Refusal where
  /-- Raised by an arm of `exec` for an instruction that has no meaning in this model; no arm does. Safe. -/
  | notModelled (mnemonic : String)
deriving DecidableEq, Repr

/-- What every step answers. -/
abbrev Result := Host.Outcome State Fault Refusal

/-- The machine right after reset (R54, R301): the table's values, `SRC`, `CNV` and `OUT` with no cell written,
`GLUT` at its reset contents. The last three fields are the model's own (log 15). -/
def State.reset : State where
  srcW := 0
  srcH := 0
  canvasW := 320
  canvasH := 240
  contrast := 307
  bright := 282
  color := 307
  sharp := 384
  usmAmt := 384
  usmThr := 3
  busy := false
  done := false
  err := false
  ovr := false
  stage := 0
  errCode := 0
  errStage := 0
  doneIe := false
  errIe := false
  newW := 0
  newH := 0
  offX := 0
  offY := 0
  mean := 0
  srcPtr := 0
  cnvPtr := 0
  outPtr := 0
  cur := 0
  pend := 0
  src := []
  cnv := []
  out := []
  glut := []
  input := []
  resp := none
  freeCount := 0

end Sys2Proof.Machine
end

