-- ==== Sys2Proof/Config.lean ====
section
/-! DEFINITION. What an implementation fixes (spec/00_scope.md R6, spec/93_implementation_defined.md section 4) and
the free values. The decided values of the parameters are `Machine.params` in Machine/Tables.lean. -/

namespace Sys2Proof

/-- The reference value of the brightness operation (`P_BRIGHT_REF`, R165). -/
inductive BrightRef where
  | zero
  | mean
deriving DecidableEq, Repr

/-- The tie rule of the quantizer (`P_TIE`, R214). -/
inductive TieRule where
  | halfUp
  | halfEven
deriving DecidableEq, Repr

/-- A resampling kernel (`P_KERNEL`, R49, R134, R143): support `KA`, resolution `KRES`, the table `KTAB`, and the
value `CAP.KERNEL` reports for it. -/
structure Kernel where
  capCode : BitVec 4
  support : Int
  resolution : Int
  table : List Int
deriving DecidableEq, Repr

/-- The parameters a model takes as its configuration, one field for each (R6). -/
structure Params where
  /-- `P_CANVAS_PIXELS`. -/
  canvasPixels : Nat
  /-- `P_SRC_PIXELS`. -/
  srcPixels : Nat
  /-- `P_DIM_BITS`: bits of each dimension field. -/
  dimBits : Nat
  /-- `P_PTR_BITS`: bits of each data-port pointer. -/
  ptrBits : Nat
  /-- `P_KERNEL`. -/
  kernel : Kernel
  /-- `P_KFRAC`: fraction bits of a `KTAB` entry. -/
  kfrac : Nat
  /-- `P_FFRAC`: fraction bits of an enhancement factor. -/
  ffrac : Nat
  /-- `P_LUMA`: the weights of red, green and blue, sum 65536. -/
  lumaRed : Int
  lumaGreen : Int
  lumaBlue : Int
  /-- `P_BRIGHT_REF`. -/
  brightRef : BrightRef
  /-- `P_SMOOTH`: the nine weights in row-major order; the divisor is their sum. -/
  smooth : List Int
  /-- `P_DN_TAPS`: odd length, sum 256. -/
  denoiseTaps : List Int
  /-- `P_USM_TAPS`: odd length, sum 256. -/
  unsharpTaps : List Int
  /-- `P_EFRAC`: fraction bits of a `WORK` cell. -/
  efrac : Nat
  /-- `P_WORK_BITS`: bits of a `WORK` cell, two's complement. -/
  workBits : Nat
  /-- `P_TIE`. -/
  tie : TieRule
  /-- `P_GAMMA_RESET`: the 256 entries `GLUT` takes at reset and at `SRST`. -/
  gammaReset : List Nat
deriving DecidableEq, Repr

/-- 1.0 in the format of the enhancement factors (R107). DESIGN CHOICE (log 21) for `P_FFRAC` other than 8, which the
spec gives no meaning: R163 and R172 write 256 and its half. -/
def Params.factorOne (p : Params) : Int := ((2 ^ p.ffrac : Nat) : Int)

/-- One unit of an 8-bit channel in the format of a `WORK` cell (R108). DESIGN CHOICE (log 21) for `P_EFRAC` other than
8, which the spec gives no meaning. -/
def Params.workOne (p : Params) : Int := ((2 ^ p.efrac : Nat) : Int)

/-- FREE VALUE (log 5): what the `n`-th host read of an unwritten cell of `SRC` or `CNV` returns (R55, U1). -/
opaque Config.freePixel : Nat → Pixel

/-- FREE VALUE (log 5): what the `n`-th host read of an unwritten cell of `OUT` returns (R55, U1). -/
opaque Config.freePacked : Nat → Packed

end Sys2Proof
end

