-- ==== Sys2Proof/Machine/Tables.lean ====
section
/-! DEFINITION. The constant tables of the spec (spec/10_state.md R49, R50) and the decided values of the parameters
(spec/00_scope.md R6). -/

namespace Sys2Proof.Machine

/-- `KTAB` of `P_KERNEL = LANCZOS3` (R49), sixteen entries to a line, entry 0 first. -/
def ktabLanczos3 : List Int :=
  [16384, 16377, 16355, 16318, 16267, 16202, 16122, 16028, 15921, 15799, 15664, 15515, 15354, 15179, 14993, 14794] ++
  [14583, 14361, 14128, 13884, 13630, 13366, 13093, 12811, 12521, 12223, 11917, 11605, 11287, 10962, 10633, 10299] ++
  [9960, 9618, 9273, 8926, 8576, 8226, 7874, 7522, 7170, 6819, 6470, 6122, 5776, 5434, 5094, 4758] ++
  [4427, 4100, 3778, 3462, 3151, 2847, 2549, 2258, 1975, 1699, 1431, 1171, 919, 676, 442, 216] ++
  [0, -207, -405, -593, -772, -941, -1101, -1251, -1391, -1522, -1643, -1755, -1858, -1951, -2035, -2111] ++
  [-2177, -2235, -2284, -2325, -2358, -2383, -2400, -2410, -2413, -2409, -2398, -2381, -2359, -2330, -2296, -2257] ++
  [-2213, -2165, -2113, -2056, -1996, -1933, -1867, -1799, -1728, -1654, -1580, -1504, -1426, -1348, -1269, -1190] ++
  [-1111, -1032, -953, -875, -798, -721, -646, -573, -501, -431, -362, -296, -232, -170, -111, -54] ++
  [0, 52, 100, 147, 190, 230, 268, 303, 335, 364, 390, 414, 435, 453, 468, 481] ++
  [492, 500, 506, 509, 511, 510, 507, 503, 497, 489, 479, 469, 457, 444, 429, 414] ++
  [398, 382, 365, 347, 329, 311, 292, 274, 256, 237, 219, 202, 184, 167, 151, 136] ++
  [121, 106, 93, 80, 68, 57, 47, 38, 30, 23, 17, 12, 7, 4, 2, 0] ++
  [0]

/-- `KTAB` of `P_KERNEL = TRIANGLE` (R143). -/
def ktabTriangle : List Int := (List.range 65).map fun (i : Nat) => 16384 - 256 * (i : Int)

/-- `GAMMA12` (R50), sixteen entries to a line, entry 0 first. -/
def gamma12 : List Nat :=
  [0, 2, 4, 6, 7, 9, 11, 12, 14, 15, 17, 18, 19, 21, 22, 24] ++
  [25, 26, 27, 29, 30, 31, 33, 34, 35, 36, 38, 39, 40, 41, 42, 44] ++
  [45, 46, 47, 48, 49, 51, 52, 53, 54, 55, 56, 57, 58, 60, 61, 62] ++
  [63, 64, 65, 66, 67, 68, 69, 71, 72, 73, 74, 75, 76, 77, 78, 79] ++
  [80, 81, 82, 83, 84, 85, 86, 87, 88, 89, 90, 91, 92, 94, 95, 96] ++
  [97, 98, 99, 100, 101, 102, 103, 104, 105, 106, 107, 108, 109, 110, 111, 111] ++
  [112, 113, 114, 115, 116, 117, 118, 119, 120, 121, 122, 123, 124, 125, 126, 127] ++
  [128, 129, 130, 131, 132, 133, 134, 135, 136, 137, 137, 138, 139, 140, 141, 142] ++
  [143, 144, 145, 146, 147, 148, 149, 150, 151, 151, 152, 153, 154, 155, 156, 157] ++
  [158, 159, 160, 161, 162, 162, 163, 164, 165, 166, 167, 168, 169, 170, 171, 172] ++
  [172, 173, 174, 175, 176, 177, 178, 179, 180, 180, 181, 182, 183, 184, 185, 186] ++
  [187, 188, 188, 189, 190, 191, 192, 193, 194, 195, 196, 196, 197, 198, 199, 200] ++
  [201, 202, 203, 203, 204, 205, 206, 207, 208, 209, 209, 210, 211, 212, 213, 214] ++
  [215, 216, 216, 217, 218, 219, 220, 221, 222, 222, 223, 224, 225, 226, 227, 228] ++
  [228, 229, 230, 231, 232, 233, 233, 234, 235, 236, 237, 238, 239, 239, 240, 241] ++
  [242, 243, 244, 244, 245, 246, 247, 248, 249, 249, 250, 251, 252, 253, 254, 255]

/-- `P_KERNEL = LANCZOS3` (R6, R49, R29). -/
def lanczos3 : Kernel where
  capCode := 1
  support := 3
  resolution := 64
  table := ktabLanczos3

/-- `P_KERNEL = TRIANGLE` (R143). -/
def triangle : Kernel where
  capCode := 2
  support := 1
  resolution := 64
  table := ktabTriangle

/-- The decided values of the parameters (R6): the configuration of `exec` and `step`, and the default of every
operation that takes one (log 8). -/
def params : Params where
  canvasPixels := 131072
  srcPixels := 1048576
  dimBits := 16
  ptrBits := 24
  kernel := lanczos3
  kfrac := 14
  ffrac := 8
  lumaRed := 19595
  lumaGreen := 38470
  lumaBlue := 7471
  brightRef := .zero
  smooth := [1, 1, 1, 1, 5, 1, 1, 1, 1]
  denoiseTaps := [27, 202, 27]
  unsharpTaps := [1, 14, 62, 102, 62, 14, 1]
  efrac := 8
  workBits := 18
  tie := .halfUp
  gammaReset := gamma12

/-- A table of blur taps: odd length, symmetric, non-negative, sum 256 (spec/93_implementation_defined.md section 4). -/
def tapsLegal (taps : List Int) : Bool :=
  taps.length % 2 == 1 && taps == taps.reverse && taps.all (fun t => decide (0 ≤ t)) && taps.sum == 256

/-- The configurations the spec gives a meaning (R6, spec/93_implementation_defined.md section 4): the two kernels; no
other `P_KFRAC`, `P_FFRAC`, `P_EFRAC` or `P_WORK_BITS` than the decided ones; memories within reach of the pointers,
pointers that a register holds and dimension fields in their places with the reset values (R21, R36, R54; log 8); and
tables of the shape asked for. What the operations do under any other configuration is the model's choice (log 21). -/
def paramsLegal (p : Params) : Bool :=
  decide (p.canvasPixels ≤ 2 ^ p.ptrBits) && decide (p.srcPixels ≤ 2 ^ p.ptrBits) && decide (p.ptrBits ≤ 32) &&
    decide (p.dimBits ≤ 16) && decide (320 < 2 ^ p.dimBits) && (p.kernel == lanczos3 || p.kernel == triangle) &&
    p.kfrac == 14 && p.ffrac == 8 && p.efrac == 8 && p.workBits == 18 &&
    p.lumaRed + p.lumaGreen + p.lumaBlue == 65536 && p.smooth.length == 9 &&
    p.smooth.all (fun w => decide (0 ≤ w)) && decide (0 < p.smooth.sum) && tapsLegal p.denoiseTaps &&
    tapsLegal p.unsharpTaps && p.gammaReset.length == 256 && p.gammaReset.all (fun v => decide (v < 256))

end Sys2Proof.Machine
end

