-- ==== Sys2Proof/Machine/Ops.lean ====
section
/-! DEFINITION. The named operations over numbers, memories and the sequencing state that every command shares:
rounding (spec/00_scope.md R8), memories (spec/10_state.md section 6), acceptance and completion
(spec/44_control.md R240, R242), and error entry and return (spec/60_exceptions.md R268, R270). -/

namespace Sys2Proof.Machine

/-! ### Rounding and range primitives (R8) -/

/-- `floor(a / b)` for `b > 0` (R8). -/
def floorDiv (a b : Int) : Int := a / b

/-- `rhu(a / b)` for `b > 0`: to the nearest integer, a tie going up (R8). -/
def rhu (a b : Int) : Int := floorDiv (2 * a + b) (2 * b)

/-- `a asr k` (R8). -/
def asr (a : Int) (k : Nat) : Int := floorDiv a (2 ^ k)

/-- `clamp(v, lo, hi)` (R8). -/
def clamp (v lo hi : Int) : Int := if v < lo then lo else if hi < v then hi else v

/-- `clamp8(v)` (R8). -/
def clamp8 (v : Int) : Int := clamp v 0 255

/-- `abs(v)` (R8). -/
def absInt (v : Int) : Int := if 0 ≤ v then v else -v

/-! ### Memories: reads and writes of one cell, of a run of cells, and the canonical form -/

/-- The entry for cell `i`, if one is listed. -/
def Mem.get {w : Nat} : Mem w → Nat → Option (BitVec w)
  | [], _ => none
  | (k, v) :: m, i => if k = i then some v else Mem.get m i

/-- `M[i] <- v`, keeping the indices strictly rising. -/
def Mem.put {w : Nat} : Mem w → Nat → BitVec w → Mem w
  | [], i, v => [(i, v)]
  | (k, u) :: m, i, v =>
    if i < k then (i, v) :: (k, u) :: m else if i = k then (i, v) :: m else (k, u) :: Mem.put m i v

/-- Cell `i` is no longer listed. -/
def Mem.erase {w : Nat} (m : Mem w) (i : Nat) : Mem w := m.filter fun c => c.1 != i

/-- The cells `k, k+1, ...` with the values of a list. -/
def Mem.run {w : Nat} : Nat → List (BitVec w) → Mem w
  | _, [] => []
  | k, v :: vs => (k, v) :: Mem.run (k + 1) vs

/-- The cells `0 .. n-1` are no longer listed: they are unwritten again (R302). -/
def Mem.dropBelow {w : Nat} (m : Mem w) (n : Nat) : Mem w := m.filter fun c => n ≤ c.1

/-- `M[k] <- vs[k]` for `k` in `0 .. vs.length - 1`; the cells at or beyond keep what they hold (R88, R138, R220). -/
def Mem.fill {w : Nat} (m : Mem w) (vs : List (BitVec w)) : Mem w := Mem.run 0 vs ++ m.dropBelow vs.length

/-- Cells `k .. k+n-1`, or none if one of them is unwritten. -/
def Mem.readRun {w : Nat} (m : Mem w) : Nat → Nat → Option (List (BitVec w))
  | _, 0 => some []
  | k, n + 1 =>
    match m.get k with
    | none => none
    | some v =>
      match Mem.readRun m (k + 1) n with
      | none => none
      | some vs => some (v :: vs)

/-- The listed indices rise strictly and stay below `size`. -/
def Mem.wf {w : Nat} (size : Nat) : Mem w → Bool
  | [] => true
  | [(k, _)] => decide (k < size)
  | (k, _) :: (l, v) :: m => decide (k < l) && Mem.wf size ((l, v) :: m)

/-- The value of `P_GAMMA_RESET` for entry `v`, which an unlisted cell of `GLUT` holds (R48, R54). -/
def gammaReset (v : Nat) (p : Params := params) : Byte := BitVec.ofNat 8 (p.gammaReset.getD v 0)

/-- `GLUT[v]` (R48). -/
def glutGet (m : Mem 8) (v : Nat) (p : Params := params) : Byte := (m.get v).getD (gammaReset v p)

/-- `GLUT[v] <- d`, keeping the canonical form: the reset value is not listed. -/
def glutPut (m : Mem 8) (v : Nat) (d : Byte) (p : Params := params) : Mem 8 :=
  if d = gammaReset v p then m.erase v else m.put v d

/-- The canonical form of `GLUT`: that of every memory, and no entry equal to its reset value. -/
def glutWf (m : Mem 8) (p : Params := params) : Bool := Mem.wf 256 m && m.all fun c => c.2 != gammaReset c.1 p

/-- All four memories are in canonical form and list only cells that exist (R45 to R48). -/
def State.memWf (s : State) (p : Params := params) : Bool :=
  Mem.wf p.srcPixels s.src && Mem.wf p.canvasPixels s.cnv && Mem.wf p.canvasPixels s.out && glutWf s.glut p

/-! ### Stages (R104) -/

/-- The nine stages in pipeline order (R104). -/
def Stage.all : List Stage :=
  [.compose, .contrast, .bright, .color, .sharp, .denoise, .unsharp, .gamma, .dither]

/-- The bit of `MASK` and of `PEND` that stands for the stage: its id less one (R102, R104). -/
def Stage.bit : Stage → Nat
  | .compose => 0
  | .contrast => 1
  | .bright => 2
  | .color => 3
  | .sharp => 4
  | .denoise => 5
  | .unsharp => 6
  | .gamma => 7
  | .dither => 8

/-- The stage id, the value of `STATUS.STAGE` and `STATUS.ERRSTAGE` (R104). -/
def Stage.id (st : Stage) : BitVec 4 := BitVec.ofNat 4 (st.bit + 1)

/-- The set that holds one stage, `1 << (s-1)` (R102). -/
def Stage.only (st : Stage) : BitVec 9 := BitVec.twoPow 9 st.bit

/-- The lowest-numbered pending stage (R43, R241). -/
def lowestPending (pend : BitVec 9) : Option Stage := Stage.all.find? fun st => pend.getLsbD st.bit

/-- `PEND` with the stage's bit cleared (R241). -/
def clearPending (pend : BitVec 9) (st : Stage) : BitVec 9 := pend &&& ~~~st.only

/-- The stage set of a command (R101, R102). -/
def stageSet : Instr → BitVec 9
  | .nop | .srst => 0
  | .compose => Stage.compose.only
  | .contrast => Stage.contrast.only
  | .bright => Stage.bright.only
  | .color => Stage.color.only
  | .sharp => Stage.sharp.only
  | .denoise => Stage.denoise.only
  | .unsharp => Stage.unsharp.only
  | .gamma => Stage.gamma.only
  | .dither => Stage.dither.only
  | .run operand => operandMask operand

/-! ### Acceptance and completion (R240, R242) -/

/-- Case 4 of R240 for a command other than `SRST`. -/
def accept (s : State) (w : Word) (stages : BitVec 9) : State :=
  { s with cur := w, pend := stages, done := false, busy := true }

/-- Completion of a command (R242). -/
def complete (s : State) : State := { s with busy := false, done := true }

/-- A host access is discarded or blocked (R42). -/
def setOvr (s : State) : State := { s with ovr := true }

/-! ### Errors (R261, R268, R270): entry and return -/

/-- The value of `STATUS.ERRCODE` for an error (R261). -/
def ErrorCode.code : ErrorCode → BitVec 8
  | .illegalCmd => 0x01
  | .invalidInput => 0x02
  | .badDim => 0x03
  | .degenerate => 0x04
  | .kernel => 0x05

/-- Error entry, for the error of a stage and for ILLEGAL_CMD alike (R268; `ERRSTAGE` is 0 for ILLEGAL_CMD, R262).
Nothing else is saved and control goes nowhere. `raiseStageError` and `raiseIllegalCmd` are its two uses. -/
def recordError (s : State) (code : ErrorCode) (errStage : BitVec 4) : State :=
  { s with err := true, errCode := code.code, errStage := errStage }

/-- A stage raises an error: the command ends in the same engine step (R268). -/
def raiseStageError (s : State) (code : ErrorCode) (st : Stage) : State :=
  { recordError s code st.id with pend := 0, busy := false }

/-- ILLEGAL_CMD at the `CMD` write: `DONE` is cleared, `STAGE`, `CUR` and `PEND` are unchanged (R240 case 3, R262,
R268). -/
def raiseIllegalCmd (s : State) : State := { recordError s .illegalCmd 0 with done := false }

/-- Error return: the acknowledgement by writing 1 to `STATUS` bit 2 (R270, R249). -/
def clearError (s : State) : State := { s with err := false, errCode := 0, errStage := 0 }

/-! ### Reset values (R54) -/

/-- Every register, every flag, the sequencing state and `GLUT` at the values of R54; `SRC`, `CNV`, `OUT` and the
model's own fields keep their contents (R300, R245). -/
def resetRegisters (s : State) : State :=
  { State.reset with
    src := s.src, cnv := s.cnv, out := s.out, input := s.input, resp := s.resp, freeCount := s.freeCount }

end Sys2Proof.Machine
end

