-- ==== Sys2Proof/Machine/Operands.lean ====
section
/-! DEFINITION. The operand forms: the pixel formats (spec/30_encoding.md R105, R106), the register operands of the
stages (spec/10_state.md section 2), and the canvas as the stages read it (R53, R79). -/

namespace Sys2Proof.Machine

/-! ### Pixels (R9, R105, R106) -/

/-- The channels, `c = 0, 1, 2` (R9). -/
inductive Channel where
  | red
  | green
  | blue
deriving DecidableEq, Repr

/-- `ch(p, c)` (R9, R105). -/
def chan (p : Pixel) : Channel → Int
  | .red => ((p.extractLsb' 16 8).toNat : Int)
  | .green => ((p.extractLsb' 8 8).toNat : Int)
  | .blue => ((p.extractLsb' 0 8).toNat : Int)

/-- The low eight bits of a channel value; the rules store only values in 0..255. -/
def channelByte (v : Int) : Byte := BitVec.ofInt 8 v

/-- `rgb888`, from the value of each channel (R9, R105). -/
def rgb888 (f : Channel → Int) : Pixel := channelByte (f .red) ++ channelByte (f .green) ++ channelByte (f .blue)

/-- `pack565(r5, g6, b5)` (R106). -/
def pack565 (r5 g6 b5 : Int) : Packed :=
  BitVec.ofInt 16 r5 <<< 11 ||| BitVec.ofInt 16 g6 <<< 5 ||| BitVec.ofInt 16 b5

/-! ### Register operands -/

/-- The U4.8 factor `F`, which stands for `F/256` (R107). -/
def factor (f : BitVec 12) : Int := (f.toNat : Int)

/-- `W` and `H` as the stages use them, `srcW` and `srcH` likewise (R21, R22). -/
def State.width (s : State) : Nat := s.canvasW.toNat
def State.height (s : State) : Nat := s.canvasH.toNat
def State.srcWidth (s : State) : Nat := s.srcW.toNat
def State.srcHeight (s : State) : Nat := s.srcH.toNat

/-- How many cells of `CNV`, `OUT` and `WORK` a stage touches: `W*H` (R79). -/
def State.canvasCells (s : State) : Nat := s.width * s.height

/-- How many cells of `SRC` `COMPOSE` reads: `srcW*srcH` (R79, R88). -/
def State.srcCells (s : State) : Nat := s.srcWidth * s.srcHeight

/-- The canvas dimensions are usable by a stage: not BAD_DIM (R22, R160, R264). -/
def State.canvasLegal (s : State) (p : Params := params) : Bool :=
  s.width != 0 && s.height != 0 && decide (s.canvasCells ≤ p.canvasPixels)

/-! ### Rasters as a stage reads them -/

/-- What a stage reads: the snapshot `P` of the canvas (R53), or the source image. The cells are in raster order,
`(x, y)` at `y*width + x` (R9, R79). -/
structure Raster where
  width : Nat
  height : Nat
  cells : Array Pixel
deriving DecidableEq, Repr

/-- The pixel at `(x, y)` of a raster (R79). A raster that a stage reads has all its `width * height` cells, so the
default is never returned inside it (log 16). -/
def Raster.pixel (P : Raster) (x y : Nat) : Pixel := P.cells.getD (y * P.width + x) 0

/-- `P(x, y, c)` (R160). -/
def Raster.channel (P : Raster) (x y : Nat) (c : Channel) : Int := chan (P.pixel x y) c

/-- `AT(P, x, y, c)`: outside the canvas, the nearest pixel inside it (R169). -/
def Raster.at (P : Raster) (x y : Int) (c : Channel) : Int :=
  P.channel (clamp x 0 (P.width - 1)).toNat (clamp y 0 (P.height - 1)).toNat c

/-- The cells of a `w` by `h` raster in raster order, from the pixel at each `(x, y)`. -/
def render (w h : Nat) (f : Nat → Nat → Pixel) : List Pixel :=
  (List.range (w * h)).map fun k => f (k % w) (k / w)

/-- The snapshot of `CNV` a stage takes at its start (R53), or none if it would read an unwritten cell (R89). -/
def State.snapshot (s : State) : Option Raster :=
  match s.cnv.readRun 0 s.canvasCells with
  | none => none
  | some cells => some { width := s.width, height := s.height, cells := cells.toArray }

/-- The source image in `SRC` (R45), or none if a cell of it is unwritten (R89). -/
def State.sourceImage (s : State) : Option Raster :=
  match s.src.readRun 0 s.srcCells with
  | none => none
  | some cells => some { width := s.srcWidth, height := s.srcHeight, cells := cells.toArray }

/-! ### What executing a stage answers -/

/-- A stage ends with its results written, raises an error in a pre-check with nothing written (R260, R269), or
reads an unwritten cell (R89, U1). -/
inductive StageResult where
  | finished (s : State)
  | error (code : ErrorCode)
  | unwritten (m : Memory)
deriving DecidableEq, Repr

/-- A stage that reads the snapshot `P` and writes with it: the pre-check of R160 first, before anything is read or
written. -/
def onCanvas (s : State) (write : Raster → State) (p : Params := params) : StageResult :=
  if s.canvasLegal p then
    match s.snapshot with
    | none => .unwritten .cnv
    | some P => .finished (write P)
  else .error .badDim

end Sys2Proof.Machine
end

