-- ==== Sys2Proof/Machine/Compose.lean ====
section
/-! DEFINITION. Stage 1, `COMPOSE`: geometry, resampling, letterbox (spec/40_compose.md R130 to R143). -/

namespace Sys2Proof.Machine

/-! ### Geometry (R132, R133) -/

/-- The resized dimensions and the paste offsets. -/
structure Geometry where
  newW : Nat
  newH : Nat
  offX : Nat
  offY : Nat
deriving DecidableEq, Repr

/-- R132 and R133, for non-zero source dimensions. -/
def geometry (srcW srcH w h : Nat) : Geometry :=
  let newW := if w * srcH ≤ h * srcW then w else srcW * h / srcH
  let newH := if w * srcH ≤ h * srcW then srcH * w / srcW else h
  { newW, newH, offX := (w - newW) / 2, offY := (h - newH) / 2 }

/-! ### Resampling (R134 to R137) -/

/-- `KW(n_in, n_out, xx, i)` (R134). -/
def kernelWeight (k : Kernel) (nIn nOut xx i : Nat) : Int :=
  let td : Int := 2 * max nIn nOut
  let tn : Int := (2 * i + 1) * nOut - (2 * xx + 1) * nIn
  let a := absInt tn
  if k.support * td ≤ a then 0
  else k.table.getD (floorDiv (2 * a * k.resolution + td) (2 * td)).toNat 0

/-- The weights of the input samples `0 .. n_in-1` for output sample `xx` (R134). -/
def kernelWeights (k : Kernel) (nIn nOut xx : Nat) : List Int :=
  (List.range nIn).map fun i => kernelWeight k nIn nOut xx i

/-- `KSUM(n_in, n_out, xx)` (R134). -/
def kernelSum (k : Kernel) (nIn nOut xx : Nat) : Int := (kernelWeights k nIn nOut xx).sum

/-- One output value of R135: `clamp8(rhu(N / S))`. -/
def weightedMean (weights line : List Int) : Int :=
  clamp8 (rhu (List.zipWith (· * ·) weights line).sum weights.sum)

/-- `RS(line, n_in, n_out)` on one channel (R135). -/
def resample (k : Kernel) (line : List Int) (nOut : Nat) : List Int :=
  (List.range nOut).map fun xx => weightedMean (kernelWeights k line.length nOut xx) line

/-- The weights of every output sample of an axis. -/
def axisWeights (k : Kernel) (nIn nOut : Nat) : List (List Int) :=
  (List.range nOut).map fun xx => kernelWeights k nIn nOut xx

/-- `RS` on a line of pixels, the three channels independently (R135 to R137, R140 property 4). -/
def resamplePixels (axis : List (List Int)) (line : List Pixel) : List Pixel :=
  let red := line.map fun p => chan p .red
  let green := line.map fun p => chan p .green
  let blue := line.map fun p => chan p .blue
  axis.map fun weights => rgb888 fun
    | .red => weightedMean weights red
    | .green => weightedMean weights green
    | .blue => weightedMean weights blue

/-- The horizontal pass (R136): the rows of `TMP`, each `newW` pixels. -/
def horizontalPass (k : Kernel) (S : Raster) (newW : Nat) : List (List Pixel) :=
  let axis := axisWeights k S.width newW
  (List.range S.height).map fun y => resamplePixels axis ((List.range S.width).map fun x => S.pixel x y)

/-- Column `x` of `TMP` (R137). -/
def column (rows : List (Array Pixel)) (x : Nat) : List Pixel := rows.map fun row => row.getD x 0

/-- The vertical pass (R137): the columns of `RSZ`, each `newH` pixels. -/
def verticalPass (k : Kernel) (tmp : List (List Pixel)) (newW newH : Nat) : List (List Pixel) :=
  let axis := axisWeights k tmp.length newH
  let rows := tmp.map List.toArray
  (List.range newW).map fun x => resamplePixels axis (column rows x)

/-- `RSZ`, by columns: horizontal pass first, then vertical (R136, R137). -/
def resized (k : Kernel) (S : Raster) (newW newH : Nat) : Array (Array Pixel) :=
  ((verticalPass k (horizontalPass k S newW) newW newH).map List.toArray).toArray

/-- The pixel `(x, y)` of the canvas after clear and paste: black outside the pasted rectangle (R138). -/
def pastedPixel (g : Geometry) (rsz : Array (Array Pixel)) (x y : Nat) : Pixel :=
  if g.offX ≤ x ∧ x < g.offX + g.newW ∧ g.offY ≤ y ∧ y < g.offY + g.newH then
    (rsz.getD (x - g.offX) #[]).getD (y - g.offY) 0
  else 0

/-- The new contents of `CNV[0 .. W*H-1]` (R138). -/
def composedCells (k : Kernel) (S : Raster) (w h : Nat) : List Pixel :=
  let g := geometry S.width S.height w h
  let rsz := resized k S g.newW g.newH
  render w h fun x y => pastedPixel g rsz x y

/-! ### The stage -/

/-- The geometry `COMPOSE` computes from the registers. -/
def State.geometry (s : State) : Geometry := Sys2Proof.Machine.geometry s.srcWidth s.srcHeight s.width s.height

/-- Pre-check 4: every weight sum of an axis is positive (R131, R141). -/
def axisPositive (k : Kernel) (nIn nOut : Nat) : Bool :=
  (List.range nOut).all fun xx => decide (0 < kernelSum k nIn nOut xx)

/-- The pre-checks, in their order; the first that fails is the error (R131, R267). With the decided kernel the fourth
has failed on no size the spec evaluated; it is kept (R141, R266, U7). -/
def composeError (s : State) (p : Params := params) : Option ErrorCode :=
  if s.srcWidth = 0 ∨ s.srcHeight = 0 then some .invalidInput
  else if ¬ s.canvasLegal p ∨ p.srcPixels < s.srcCells then some .badDim
  else
    let g := s.geometry
    if g.newW = 0 ∨ g.newH = 0 then some .degenerate
    else if ¬ (axisPositive p.kernel s.srcWidth g.newW ∧ axisPositive p.kernel s.srcHeight g.newH) then some .kernel
    else none

/-- What a `COMPOSE` that raises no error writes: `CNV`, `RSZ_DIM`, `RSZ_OFF` (R138, R139). -/
def composeWrite (s : State) (S : Raster) (p : Params := params) : State :=
  let g := s.geometry
  { s with
    cnv := s.cnv.fill (composedCells p.kernel S s.width s.height)
    newW := BitVec.ofNat 16 g.newW
    newH := BitVec.ofNat 16 g.newH
    offX := BitVec.ofNat 16 g.offX
    offY := BitVec.ofNat 16 g.offY }

/-- Stage 1 (R130). -/
def stageCompose (s : State) (p : Params := params) : StageResult :=
  match composeError s p with
  | some code => .error code
  | none =>
    match s.sourceImage with
    | none => .unwritten .src
    | some S => .finished (composeWrite s S p)

end Sys2Proof.Machine
end

