-- ==== Sys2Proof/Machine/Dither.lean ====
section
/-! DEFINITION. Stage 9, `DITHER`: quantization to 5-6-5 with Floyd-Steinberg error diffusion in strict raster order
(spec/43_dither.md R210 to R224). The three channels are independent (R212), so the scan is written once, for the
plane of one channel. A `WORK` cell is an exact integer in units of the last fraction bit, 1/256 (R108; log 7). -/

namespace Sys2Proof.Machine

/-- `QMAX[c]` (R210). -/
def qmax : Channel → Int
  | .red => 31
  | .green => 63
  | .blue => 31

/-- `STEP[c]`, one code step in `WORK` units: 8, 4 and 8 of the 8-bit scale (R210). -/
def codeStep (c : Channel) (p : Params := params) : Int :=
  match c with
  | .red => 8 * p.workOne
  | .green => 4 * p.workOne
  | .blue => 8 * p.workOne

/-- `CLAMPW(n)` (R213). -/
def clampWork (n : Int) (p : Params := params) : Int := clamp n 0 (255 * p.workOne)

/-- `RND(a / b)` by the tie rule (R214). -/
def roundTie (tie : TieRule) (a b : Int) : Int :=
  match tie with
  | .halfUp => rhu a b
  | .halfEven =>
    let q0 := floorDiv a b
    let r := a - q0 * b
    if b < 2 * r ∨ (2 * r = b ∧ q0 % 2 = 1) then q0 + 1 else q0

/-- `QUANT(c, vc)` (R214). -/
def quantize (tie : TieRule) (c : Channel) (vc : Int) (p : Params := params) : Int :=
  min (qmax c) (roundTie tie vc (codeStep c p))

/-- The quantization error of step 4 (R216). -/
def quantError (c : Channel) (vc q : Int) (p : Params := params) : Int := vc - q * codeStep c p

/-- The four neighbours `(dx, dy)` and their weights over 16 (R217). -/
def diffusionShares : List (Int × Int × Int) := [(1, 0, 7), (-1, 1, 3), (0, 1, 5), (1, 1, 1)]

/-- One share of the error, added to the neighbour if it lies inside the raster, dropped otherwise (R217). -/
def diffuseShare (w h : Nat) (x y : Nat) (e : Int) (plane : Array Int) (share : Int × Int × Int) : Array Int :=
  let nx := (x : Int) + share.1
  let ny := (y : Int) + share.2.1
  if 0 ≤ nx ∧ nx < w ∧ 0 ≤ ny ∧ ny < h then
    let i := (ny * w + nx).toNat
    plane.setIfInBounds i (plane.getD i 0 + rhu (e * share.2.2) 16)
  else plane

/-- `DIFFUSE(c, x, y, e)` on the plane of channel `c` (R217). -/
def diffuse (w h x y : Nat) (e : Int) (plane : Array Int) : Array Int :=
  diffusionShares.foldl (diffuseShare w h x y e) plane

/-- INIT for one channel (R211). -/
def workPlane (P : Raster) (c : Channel) (p : Params := params) : Array Int :=
  (P.cells.toList.map fun px => p.workOne * chan px c).toArray

/-- The clamped value, the code and the plane after one position of the scan, cell `k` being `(k mod W, k div W)`
(R210, R213 to R217). -/
def ditherCell (c : Channel) (w h k : Nat) (plane : Array Int) (p : Params := params) : Int × Array Int :=
  let vc := clampWork (plane.getD k 0) p
  let q := quantize p.tie c vc p
  (q, diffuse w h (k % w) (k / w) (quantError c vc q p) plane)

/-- The codes of the cells listed, each visited with the errors of the cells before it (R212). -/
def ditherScan (c : Channel) (w h : Nat) (cells : List Nat) (plane : Array Int) (p : Params := params) : List Int :=
  match cells with
  | [] => []
  | k :: ks =>
    let (q, plane) := ditherCell c w h k plane p
    q :: ditherScan c w h ks plane p

/-- The codes of one channel for the whole raster, row 0 to row `H-1`, column 0 to column `W-1` (R212). -/
def ditherCodes (P : Raster) (c : Channel) (p : Params := params) : List Int :=
  ditherScan c P.width P.height (List.range (P.width * P.height)) (workPlane P c p) p

/-- The new contents of `OUT[0 .. W*H-1]` (R215). -/
def ditherCells (P : Raster) (p : Params := params) : List Packed :=
  List.zipWith (fun rg b => pack565 rg.1 rg.2 b) (List.zip (ditherCodes P .red p) (ditherCodes P .green p))
    (ditherCodes P .blue p)

/-- Stage 9 (R210): writes `OUT`, not `CNV` (R220). -/
def stageDither (s : State) (p : Params := params) : StageResult :=
  onCanvas s (p := p) fun P => { s with out := s.out.fill (ditherCells P p) }

end Sys2Proof.Machine
end

