-- ==== Sys2Proof/Machine/Enhance.lean ====
section
/-! DEFINITION. Stages 2 to 7, the perceptual enhancer (spec/41_enhance.md R160 to R175). Every stage reads the
snapshot `P` and writes all of `CNV[0 .. W*H-1]`. -/

namespace Sys2Proof.Machine

/-! ### Common operations -/

/-- `Y(p)`, the luminance (R161). -/
def luma (p : Params) (px : Pixel) : Int :=
  asr (p.lumaRed * chan px .red + p.lumaGreen * chan px .green + p.lumaBlue * chan px .blue + 32768) 16

/-- `GM(P)`, the gray-level mean of the whole canvas (R162). -/
def grayMean (p : Params) (P : Raster) : Int := rhu (P.cells.toList.map (luma p)).sum (P.width * P.height : Nat)

/-- `BL(ref, v, F)`, the blend (R163; log 21 for `P_FFRAC` other than 8). -/
def blend (ref v F : Int) (p : Params := params) : Int :=
  clamp8 (floorDiv (p.factorOne * ref + F * (v - ref) + p.factorOne / 2) p.factorOne)

/-- `SM(P, x, y, c)`, the smoothed reference of `SHARP` (R167); `weights` are the nine weights of `P_SMOOTH` in
row-major order and the divisor is their sum. -/
def smooth (weights : List Int) (P : Raster) (x y : Int) (c : Channel) : Int :=
  let s := (weights.zipIdx.map fun wn =>
    wn.1 * P.at (x + (wn.2 % 3 : Nat) - 1) (y + (wn.2 / 3 : Nat) - 1) c).sum
  rhu s weights.sum

/-- `GB(P, x, y, c, T)`, the separable blur with taps `T[-r .. r]`, one rounding after the two-dimensional sum
(R170). -/
def gaussBlur (taps : List Int) (P : Raster) (x y : Int) (c : Channel) : Int :=
  let r : Int := (taps.length / 2 : Nat)
  let s := (taps.zipIdx.map fun tj =>
    (taps.zipIdx.map fun ti => ti.1 * tj.1 * P.at (x + ti.2 - r) (y + tj.2 - r) c).sum).sum
  floorDiv (s + 32768) 65536

/-- The unsharp mask of one channel value `v` with blurred value `b` (R172; log 21 for `P_FFRAC` other than 8). -/
def unsharpMask (amt thr v b : Int) (p : Params := params) : Int :=
  let d := v - b
  if thr < absInt d then clamp8 (v + floorDiv (amt * d + p.factorOne / 2) p.factorOne) else v

/-- The new contents of `CNV[0 .. W*H-1]` when every channel is computed from its position. -/
def mapChannels (P : Raster) (f : Nat → Nat → Channel → Int) : List Pixel :=
  render P.width P.height fun x y => rgb888 (f x y)

/-! ### The new canvas of each stage -/

/-- `CONTRAST` with reference `M` (R164), and `BRIGHT` with reference `ref` (R165). -/
def blendCells (ref F : Int) (P : Raster) (p : Params := params) : List Pixel :=
  mapChannels P fun x y c => blend ref (P.channel x y c) F p

/-- The reference value of `BRIGHT` (R165). -/
def brightReference (p : Params) (P : Raster) : Int :=
  match p.brightRef with
  | .zero => 0
  | .mean => grayMean p P

/-- `COLOR` (R166). -/
def colorCells (p : Params) (F : Int) (P : Raster) : List Pixel :=
  mapChannels P fun x y c => blend (luma p (P.pixel x y)) (P.channel x y c) F p

/-- `SHARP` (R168). -/
def sharpCells (p : Params) (F : Int) (P : Raster) : List Pixel :=
  mapChannels P fun x y c => blend (smooth p.smooth P x y c) (P.channel x y c) F p

/-- `DENOISE` (R171). -/
def denoiseCells (p : Params) (P : Raster) : List Pixel :=
  mapChannels P fun x y c => gaussBlur p.denoiseTaps P x y c

/-- `UNSHARP` (R172). -/
def unsharpCells (p : Params) (amt thr : Int) (P : Raster) : List Pixel :=
  mapChannels P fun x y c => unsharpMask amt thr (P.channel x y c) (gaussBlur p.unsharpTaps P x y c) p

/-! ### The stages -/

/-- Stage 2 (R164): writes `CNV` and `MEAN`. -/
def stageContrast (s : State) (p : Params := params) : StageResult :=
  onCanvas s (p := p) fun P =>
    let M := grayMean p P
    { s with cnv := s.cnv.fill (blendCells M (factor s.contrast) P p), mean := channelByte M }

/-- What `BRIGHT` writes under a configuration: `CNV`, and `MEAN` when `P_BRIGHT_REF = MEAN` (R165, R35). -/
def brightWrite (p : Params) (s : State) (P : Raster) : State :=
  let ref := brightReference p P
  { s with
    cnv := s.cnv.fill (blendCells ref (factor s.bright) P p)
    mean := if p.brightRef = .mean then channelByte ref else s.mean }

/-- Stage 3 (R165). -/
def stageBright (s : State) (p : Params := params) : StageResult := onCanvas s (brightWrite p s) p

/-- Stage 4 (R166). -/
def stageColor (s : State) (p : Params := params) : StageResult :=
  onCanvas s (p := p) fun P => { s with cnv := s.cnv.fill (colorCells p (factor s.color) P) }

/-- Stage 5 (R168). -/
def stageSharp (s : State) (p : Params := params) : StageResult :=
  onCanvas s (p := p) fun P => { s with cnv := s.cnv.fill (sharpCells p (factor s.sharp) P) }

/-- Stage 6 (R171). -/
def stageDenoise (s : State) (p : Params := params) : StageResult :=
  onCanvas s (p := p) fun P => { s with cnv := s.cnv.fill (denoiseCells p P) }

/-- Stage 7 (R172). -/
def stageUnsharp (s : State) (p : Params := params) : StageResult :=
  onCanvas s (p := p) fun P =>
    { s with cnv := s.cnv.fill (unsharpCells p (factor s.usmAmt) (s.usmThr.toNat : Int) P) }

end Sys2Proof.Machine
end

