-- ==== Sys2Proof/Machine/Gamma.lean ====
section
/-! DEFINITION. Stage 8, `GAMMA`: every channel value through the table `GLUT` (spec/42_gamma.md R200 to R204). -/

namespace Sys2Proof.Machine

/-- The new contents of `CNV[0 .. W*H-1]` (R200). -/
def gammaCells (glut : Mem 8) (P : Raster) (p : Params := params) : List Pixel :=
  render P.width P.height fun x y => rgb888 fun c => ((glutGet glut (P.channel x y c).toNat p).toNat : Int)

/-- Stage 8 (R200). -/
def stageGamma (s : State) (p : Params := params) : StageResult :=
  onCanvas s (p := p) fun P => { s with cnv := s.cnv.fill (gammaCells s.glut P p) }

end Sys2Proof.Machine
end

