-- ==== Sys2Proof/Machine/Engine.lean ====
section
/-! DEFINITION. The mechanism common to all commands (spec/44_control.md R240 to R242, R247, R248, R250): the `CMD`
write, the engine step, and a whole command. -/

namespace Sys2Proof.Machine

/-- Execute a stage by its rule (R241). -/
def runStage (st : Stage) (s : State) (p : Params := params) : StageResult :=
  match st with
  | .compose => stageCompose s p
  | .contrast => stageContrast s p
  | .bright => stageBright s p
  | .color => stageColor s p
  | .sharp => stageSharp s p
  | .denoise => stageDenoise s p
  | .unsharp => stageUnsharp s p
  | .gamma => stageGamma s p
  | .dither => stageDither s p

/-- `STAGE <- s`, then stage `s`, then its bit of `PEND` cleared or the error recorded (R241, R268). -/
def stageStep (s : State) (st : Stage) (p : Params := params) : Result :=
  match runStage st { s with stage := st.id } p with
  | .finished t => .next { t with pend := clearPending t.pend st }
  | .error code => .next (raiseStageError { s with stage := st.id } code st)
  | .unwritten m => .fault (.unwrittenCell m)

/-- The engine step (R241), for a state with `BUSY = 1`. -/
def engineStep (s : State) (p : Params := params) : Result :=
  match lowestPending s.pend with
  | none => .next (complete s)
  | some st => stageStep s st p

/-- At most `n` engine steps, while `BUSY = 1` (R241, R250). -/
def engineRun (n : Nat) (s : State) (p : Params := params) : Result :=
  match n with
  | 0 => .next s
  | n + 1 =>
    if s.busy then
      match engineStep s p with
      | .next t => engineRun n t p
      | .fault r => .fault r
      | .refused r => .refused r
    else .next s

/-- The engine steps that bring any accepted command to `BUSY = 0` (R250). -/
def commandSteps : Nat := 10

/-- The effect of `SRST` at the `CMD` write (R245). -/
def softReset (s : State) : State := resetRegisters s

/-- `HostWrite(CMD, w)`: exactly one of the four cases of R240, in their order. -/
def writeCommand (s : State) (w : Word) : State :=
  if s.busy then setOvr s
  else if s.err ∧ w ≠ encode .srst then setOvr s
  else
    match decode w with
    | .illegal _ => raiseIllegalCmd s
    | .instr .srst => softReset s
    | .instr i => accept s w (stageSet i)

/-- An illegal word presented on `CMD` (R240 cases 1 to 3, R103, R262). -/
def presentIllegal (s : State) : State :=
  if s.busy then setOvr s else if s.err then setOvr s else raiseIllegalCmd s

/-- A command other than `SRST` presented on `CMD` and, if it is accepted, run by the engine until `BUSY = 0`
(R240, R241; log 3). Turned away, it sets `OVR` and nothing else (R247, R248). -/
def issue (s : State) (w : Word) (stages : BitVec 9) : Result :=
  if s.busy then .next (setOvr s)
  else if s.err then .next (setOvr s)
  else engineRun commandSteps (accept s w stages)

end Sys2Proof.Machine
end

