-- ==== Sys2Proof/Machine/ControlCommands.lean ====
section
/-! DEFINITION. The meanings of `NOP`, `RUN` and `SRST` (spec/44_control.md R243 to R245). -/

namespace Sys2Proof.Machine

/-- `NOP`: accepted with no stage pending, completed by the next engine step (R243). -/
def execNop (s : State) : Result := issue s (encode .nop) 0

/-- `RUN`: the stages of `MASK` in ascending id (R244). With a bit of `RSV` set the word is illegal (R103, log 17). -/
def execRun (operand : BitVec 24) (s : State) : Result :=
  if operandReserved operand = 0 then issue s (encode (.run operand)) (operandMask operand)
  else .next (presentIllegal s)

/-- `SRST`: accepted when idle, also with `ERR = 1`; wholly at the `CMD` write (R245, R247). -/
def execSrst (s : State) : Result := if s.busy then .next (setOvr s) else .next (softReset s)

end Sys2Proof.Machine
end

