-- ==== Sys2Proof/Machine/StageCommands.lean ====
section
/-! DEFINITION. The meanings of the nine single-stage commands: each is accepted with its one stage pending and run to
completion or error (spec/40_compose.md R130, spec/41_enhance.md R164 to R172, spec/42_gamma.md R200,
spec/43_dither.md R210; spec/30_encoding.md R102). -/

namespace Sys2Proof.Machine

/-- `COMPOSE` (R130). -/
def execCompose (s : State) : Result := issue s (encode .compose) Stage.compose.only

/-- `CONTRAST` (R164). -/
def execContrast (s : State) : Result := issue s (encode .contrast) Stage.contrast.only

/-- `BRIGHT` (R165). -/
def execBright (s : State) : Result := issue s (encode .bright) Stage.bright.only

/-- `COLOR` (R166). -/
def execColor (s : State) : Result := issue s (encode .color) Stage.color.only

/-- `SHARP` (R168). -/
def execSharp (s : State) : Result := issue s (encode .sharp) Stage.sharp.only

/-- `DENOISE` (R171). -/
def execDenoise (s : State) : Result := issue s (encode .denoise) Stage.denoise.only

/-- `UNSHARP` (R172). -/
def execUnsharp (s : State) : Result := issue s (encode .unsharp) Stage.unsharp.only

/-- `GAMMA` (R200). -/
def execGamma (s : State) : Result := issue s (encode .gamma) Stage.gamma.only

/-- `DITHER` (R210). -/
def execDither (s : State) : Result := issue s (encode .dither) Stage.dither.only

end Sys2Proof.Machine
end

