-- ==== Sys2Proof/Machine/Dispatch.lean ====
section
/-! DEFINITION. One arm per command (spec/30_encoding.md R101). -/

namespace Sys2Proof.Machine

/-- The meaning of a command: it is presented on `CMD` and, if accepted, runs until `BUSY = 0` (R240, R241). -/
def exec (i : Instr) (s : State) : Host.Outcome State Fault Refusal :=
  match i with
  | .nop => Sys2Proof.Machine.execNop s
  | .compose => Sys2Proof.Machine.execCompose s
  | .contrast => Sys2Proof.Machine.execContrast s
  | .bright => Sys2Proof.Machine.execBright s
  | .color => Sys2Proof.Machine.execColor s
  | .sharp => Sys2Proof.Machine.execSharp s
  | .denoise => Sys2Proof.Machine.execDenoise s
  | .unsharp => Sys2Proof.Machine.execUnsharp s
  | .gamma => Sys2Proof.Machine.execGamma s
  | .dither => Sys2Proof.Machine.execDither s
  | .run operand => Sys2Proof.Machine.execRun operand s
  | .srst => Sys2Proof.Machine.execSrst s

end Sys2Proof.Machine
end

