-- ==== Sys2Proof/Machine/Flags.lean ====
section
/-! DEFINITION. The flags of the command mechanism (spec/10_state.md R31, R39 to R42), the write-one-to-clear write of
`STATUS` (spec/44_control.md R249), and the interrupt output (spec/60_exceptions.md R273). No stage result sets a flag. -/

namespace Sys2Proof.Machine

/-- A flag as a one-bit field. -/
def flagBit (b : Bool) : BitVec 1 := BitVec.ofBool b

/-- The word a read of `STATUS` returns (R31); bits 31:20 are reserved. -/
def statusWord (s : State) : Word :=
  0#12 ++ s.errStage ++ s.errCode ++ s.stage ++ flagBit s.ovr ++ flagBit s.err ++ flagBit s.done ++ flagBit s.busy

/-- `HostWrite(STATUS, d)`: bits 1, 2, 3 are write-one-to-clear, other bits are ignored (R31, R249). -/
def writeStatus (s : State) (d : Word) : State :=
  let s := if d.getLsbD 1 then { s with done := false } else s
  let s := if d.getLsbD 2 then clearError s else s
  if d.getLsbD 3 then { s with ovr := false } else s

/-- The word a read of `INT_EN` returns (R32). -/
def intEnWord (s : State) : Word := 0#30 ++ flagBit s.errIe ++ flagBit s.doneIe

/-- `HostWrite(INT_EN, d)` (R32). -/
def writeIntEn (s : State) (d : Word) : State := { s with doneIe := d.getLsbD 0, errIe := d.getLsbD 1 }

/-- The interrupt output, a level (R273, R274). -/
def State.irq (s : State) : Bool := (s.done && s.doneIe) || (s.err && s.errIe)

end Sys2Proof.Machine
end

