-- ==== Sys2Proof/Machine/HostPort.lean ====
section
/-! DEFINITION. The host port: the address map, `HostRead` and `HostWrite` (spec/20_memory.md R70 to R82), the hardware
reset input (spec/70_reset_and_hazards.md R300, R302), and one turn of one agent. -/

namespace Sys2Proof.Machine

/-! ### The address map (R71, R72) -/

/-- What an aligned offset of the window selects (R71). -/
inductive PortReg where
  | id
  | cap
  | cmd
  | status
  | intEn
  | srcDim
  | cnvDim
  | contrast
  | bright
  | color
  | sharp
  | usm
  | rszDim
  | rszOff
  | mean
  | srcPtr
  | srcData
  | cnvPtr
  | cnvData
  | outPtr
  | outData
  | glut (v : Nat)
  | reserved
deriving DecidableEq, Repr

/-- The address map, by the index of the 32-bit word (R71). -/
def portReg (wordIndex : Nat) : PortReg :=
  match wordIndex with
  | 0x000 => .id
  | 0x001 => .cap
  | 0x002 => .cmd
  | 0x003 => .status
  | 0x004 => .intEn
  | 0x006 => .srcDim
  | 0x007 => .cnvDim
  | 0x008 => .contrast
  | 0x009 => .bright
  | 0x00A => .color
  | 0x00B => .sharp
  | 0x00C => .usm
  | 0x00D => .rszDim
  | 0x00E => .rszOff
  | 0x00F => .mean
  | 0x010 => .srcPtr
  | 0x011 => .srcData
  | 0x012 => .cnvPtr
  | 0x013 => .cnvData
  | 0x014 => .outPtr
  | 0x015 => .outData
  | k => if 0x100 ≤ k ∧ k < 0x200 then .glut (k - 0x100) else .reserved

/-- The register at an offset; none for an offset that is not a multiple of 4 (R72). -/
def regAt (a : Offset) : Option PortReg := if a.toNat % 4 = 0 then some (portReg (a.toNat / 4)) else none

/-! ### Register words (10_state.md) -/

/-- `ID` (R28). -/
def idWord : Word := 0x4C524E31

/-- `CAP` (R29), from the parameters. DESIGN CHOICE (log 20): for a size that is no power of two, which
spec/93_implementation_defined.md section 4 allows, `log2` is rounded down; R29 does not say. -/
def capWord (p : Params) : Word :=
  let tie : BitVec 1 := match p.tie with | .halfUp => 0 | .halfEven => 1
  let bref : BitVec 1 := match p.brightRef with | .zero => 0 | .mean => 1
  0#6 ++ tie ++ bref ++ BitVec.ofNat 8 p.srcPixels.log2 ++ BitVec.ofNat 8 p.canvasPixels.log2 ++
    BitVec.ofNat 4 p.efrac ++ p.kernel.capCode

/-- `SRC_DIM` (R21). -/
def srcDimWord (s : State) : Word := s.srcH ++ s.srcW

/-- `CNV_DIM` (R22). -/
def cnvDimWord (s : State) : Word := s.canvasH ++ s.canvasW

/-- `CONTRAST`, `BRIGHT`, `COLOR`, `SHARP`: bits 11:0 (R23 to R26). -/
def factorWord (f : BitVec 12) : Word := f.setWidth 32

/-- `USM` (R27). -/
def usmWord (s : State) : Word := 0#8 ++ s.usmThr ++ 0#4 ++ s.usmAmt

/-- `RSZ_DIM` (R33). -/
def rszDimWord (s : State) : Word := s.newH ++ s.newW

/-- `RSZ_OFF` (R34). -/
def rszOffWord (s : State) : Word := s.offY ++ s.offX

/-! ### Data ports (R75 to R77) -/

/-- The low `n` bits of a register field: those a configuration has, where it has fewer than the map gives (R6). -/
def keepBits {w : Nat} (n : Nat) (x : BitVec w) : BitVec w := (x.setWidth n).setWidth w

/-- The `IDX` field of a pointer register: what a write of the word stores and a read returns (R75 to R77). -/
def pointerField (d : Word) (p : Params := params) : Word := keepBits p.ptrBits d

/-- The cell index of a data access (R75). -/
def pointerIndex (ptr : Word) (p : Params := params) : Nat := (pointerField ptr p).toNat

/-- The pointer after a data access: it advances, in range or not, and wraps from `2^24 - 1` to 0 (R75), from
`2^P_PTR_BITS - 1` under another configuration (log 8). -/
def advance (ptr : Word) (p : Params := params) : Word := pointerField (ptr + 1) p

/-- What a write of a dimension register stores in the field that starts at bit `lo` (R21, R22). -/
def dimField (d : Word) (lo : Nat) (p : Params := params) : BitVec 16 := keepBits p.dimBits (d.extractLsb' lo 16)

/-- What a data port returns for cell `i` of a memory of `size` cells; `free` is the free value of an unwritten cell
(R75; R55 and U1, log 5). -/
def portCell {w : Nat} (m : Mem w) (size i : Nat) (free : BitVec w) : Word :=
  if i < size then ((m.get i).getD free).setWidth 32 else 0

/-- Whether a data port read draws a free value: the cell exists and is unwritten. -/
def drawsFree {w : Nat} (m : Mem w) (size i : Nat) : Bool := decide (i < size) && (m.get i).isNone

/-- The counter of free values after a read. -/
def countFree (s : State) (draws : Bool) : Nat := if draws then s.freeCount + 1 else s.freeCount

/-- `HostRead(SRC_DATA)` with `BUSY = 0` (R75). -/
def readSrcData (s : State) (p : Params := params) : Word × State :=
  let i := pointerIndex s.srcPtr p
  (portCell s.src p.srcPixels i (Config.freePixel s.freeCount),
    { s with srcPtr := advance s.srcPtr p, freeCount := countFree s (drawsFree s.src p.srcPixels i) })

/-- `HostRead(CNV_DATA)` with `BUSY = 0` (R76). -/
def readCnvData (s : State) (p : Params := params) : Word × State :=
  let i := pointerIndex s.cnvPtr p
  (portCell s.cnv p.canvasPixels i (Config.freePixel s.freeCount),
    { s with cnvPtr := advance s.cnvPtr p, freeCount := countFree s (drawsFree s.cnv p.canvasPixels i) })

/-- `HostRead(OUT_DATA)` with `BUSY = 0` (R77). -/
def readOutData (s : State) (p : Params := params) : Word × State :=
  let i := pointerIndex s.outPtr p
  (portCell s.out p.canvasPixels i (Config.freePacked s.freeCount),
    { s with outPtr := advance s.outPtr p, freeCount := countFree s (drawsFree s.out p.canvasPixels i) })

/-- `HostWrite(SRC_DATA, d)` with `BUSY = 0` (R75). -/
def writeSrcData (s : State) (d : Word) (p : Params := params) : State :=
  let i := pointerIndex s.srcPtr p
  { s with
    src := if i < p.srcPixels then s.src.put i (d.setWidth 24) else s.src
    srcPtr := advance s.srcPtr p }

/-- `HostWrite(CNV_DATA, d)` with `BUSY = 0` (R76). -/
def writeCnvData (s : State) (d : Word) (p : Params := params) : State :=
  let i := pointerIndex s.cnvPtr p
  { s with
    cnv := if i < p.canvasPixels then s.cnv.put i (d.setWidth 24) else s.cnv
    cnvPtr := advance s.cnvPtr p }

/-! ### The two transactions (R70, R82) -/

/-- A write of an item the engine owns while `BUSY = 1` is discarded with `OVR` (R82). -/
def ifIdle (s t : State) : State := if s.busy then setOvr s else t

/-- A read of an item the engine owns while `BUSY = 1` returns 0 with `OVR`, no pointer moving (R82). -/
def ifIdleRead (s : State) (r : Word × State) : Word × State := if s.busy then (0, setOvr s) else r

/-- The read of a register (R71, R82): the word returned and the state after it. -/
def readReg (s : State) (r : PortReg) (p : Params := params) : Word × State :=
  match r with
  | .id => (idWord, s)
  | .cap => (capWord p, s)
  | .cmd => (0, s)
  | .status => (statusWord s, s)
  | .intEn => (intEnWord s, s)
  | .srcDim => (srcDimWord s, s)
  | .cnvDim => (cnvDimWord s, s)
  | .contrast => (factorWord s.contrast, s)
  | .bright => (factorWord s.bright, s)
  | .color => (factorWord s.color, s)
  | .sharp => (factorWord s.sharp, s)
  | .usm => (usmWord s, s)
  | .rszDim => (rszDimWord s, s)
  | .rszOff => (rszOffWord s, s)
  | .mean => (s.mean.setWidth 32, s)
  | .srcPtr => (pointerField s.srcPtr p, s)
  | .srcData => ifIdleRead s (readSrcData s p)
  | .cnvPtr => (pointerField s.cnvPtr p, s)
  | .cnvData => ifIdleRead s (readCnvData s p)
  | .outPtr => (pointerField s.outPtr p, s)
  | .outData => ifIdleRead s (readOutData s p)
  | .glut v => ifIdleRead s ((glutGet s.glut v p).setWidth 32, s)
  | .reserved => (0, s)

/-- The write of a register (R71, R82). -/
def writeReg (s : State) (d : Word) (r : PortReg) (p : Params := params) : State :=
  match r with
  | .id | .cap | .rszDim | .rszOff | .mean | .outData | .reserved => s
  | .cmd => writeCommand s d
  | .status => writeStatus s d
  | .intEn => writeIntEn s d
  | .srcDim => ifIdle s { s with srcW := dimField d 0 p, srcH := dimField d 16 p }
  | .cnvDim => ifIdle s { s with canvasW := dimField d 0 p, canvasH := dimField d 16 p }
  | .contrast => ifIdle s { s with contrast := d.setWidth 12 }
  | .bright => ifIdle s { s with bright := d.setWidth 12 }
  | .color => ifIdle s { s with color := d.setWidth 12 }
  | .sharp => ifIdle s { s with sharp := d.setWidth 12 }
  | .usm => ifIdle s { s with usmAmt := d.extractLsb' 0 12, usmThr := d.extractLsb' 16 8 }
  | .srcPtr => ifIdle s { s with srcPtr := pointerField d p }
  | .cnvPtr => ifIdle s { s with cnvPtr := pointerField d p }
  | .outPtr => ifIdle s { s with outPtr := pointerField d p }
  | .srcData => ifIdle s (writeSrcData s d p)
  | .cnvData => ifIdle s (writeCnvData s d p)
  | .glut v => ifIdle s { s with glut := glutPut s.glut v (d.setWidth 8) p }

/-- `HostRead(a)`; a malformed transfer returns `BusError` and changes no state (R70, R72). -/
def hostRead (s : State) (width : Width) (a : Offset) (p : Params := params) : Response × State :=
  match width, regAt a with
  | .word, some r => (.data (readReg s r p).1, (readReg s r p).2)
  | _, _ => (.busError, s)

/-- `HostWrite(a, d)`; a malformed transfer is dropped and changes no state (R70, R72). -/
def hostWrite (s : State) (width : Width) (a : Offset) (d : Word) (p : Params := params) : State :=
  match width, regAt a with
  | .word, some r => writeReg s d r p
  | _, _ => s

/-! ### The hardware reset input (R300, R302) -/

/-- Whether a stage could write its memory: its pre-checks raise no error (R260, R269). -/
def stageWrites (s : State) (st : Stage) (p : Params := params) : Bool :=
  match st with
  | .compose => (composeError s p).isNone
  | .contrast | .bright | .color | .sharp | .denoise | .unsharp | .gamma | .dither => s.canvasLegal p

/-- The memories with every cell the abandoned stage could have written unwritten again: `CNV[0 .. W*H-1]` for stages
1 to 8, `OUT[0 .. W*H-1]` for stage 9 (R302, U2; log 10). -/
def abandonStage (s : State) (st : Stage) (p : Params := params) : State :=
  if stageWrites s st p then
    match st with
    | .dither => { s with out := s.out.dropBelow s.canvasCells }
    | .compose | .contrast | .bright | .color | .sharp | .denoise | .unsharp | .gamma =>
      { s with cnv := s.cnv.dropBelow s.canvasCells }
  else s

/-- The command in flight is abandoned in the stage the engine is executing (R300, R302); with no stage pending none is
(log 10). -/
def abandonCommand (s : State) (p : Params := params) : State :=
  match lowestPending s.pend with
  | none => s
  | some st => abandonStage s st p

/-- Every cell of `SRC`, `CNV` and `OUT` unwritten: none has been written since the last hardware reset (R54, R55,
U1). -/
def forgetRasters (s : State) : State := { s with src := [], cnv := [], out := [] }

/-- The hardware reset input, at any time (R300). On an idle block every cell is unwritten afterwards (R54, R55, R301,
U1). DESIGN CHOICE (log 18) on a busy one, where those rules and U2 differ: the cells outside the abandoned stage's
write set keep their values, as U2 says of a reset that interrupted a command. -/
def hardReset (s : State) (p : Params := params) : State :=
  resetRegisters (if s.busy then abandonCommand s p else forgetRasters s)

/-! ### One turn of one agent -/

/-- A host transaction, an engine step if `BUSY = 1` (R241: it has none otherwise), or the hardware reset. -/
def takeTurn (s : State) (t : Turn) (p : Params := params) : Result :=
  match t with
  | .read width a => .next { (hostRead s width a p).2 with resp := some (hostRead s width a p).1 }
  | .write width a d => .next (hostWrite s width a d p)
  | .engine => if s.busy then engineStep s p else .next s
  | .hardReset => .next (hardReset s p)

end Sys2Proof.Machine
end

