-- ==== Sys2Proof/Machine/Schedule.lean ====
section
/-! DEFINITION. Which agent acts next (spec/44_control.md R241, R250; log 1, log 2), and the host's presenting of a
command word (spec/30_encoding.md R113; log 3). -/

namespace Sys2Proof.Machine

/-- The host presents a command word and waits (R113): the decoder names the command and `exec` is its meaning. -/
def runCommand (w : Word) (s : State) : Result :=
  match decode w with
  | .instr i => exec i s
  | .illegal _ => .next (presentIllegal s)

/-- What follows a poll of the host's `wait` (R113): nothing more of it when the word read has `BUSY = 0`, else an
engine step and the next poll (log 19). -/
def afterPoll (s : State) (rest : List Input) : List Input :=
  if (statusWord s).getLsbD 0 then .turn .engine :: .wait :: rest else rest

/-- The next entry of `input` if there is one, else the engine's turn; `command` is what a command word does. -/
def nextInput (command : Word → State → Result) (s : State) (p : Params := params) : Result :=
  match s.input with
  | .command w :: rest => command w { s with input := rest }
  | .turn t :: rest => takeTurn { s with input := rest } t p
  | .wait :: rest => takeTurn { s with input := afterPoll s rest } (.read .word 0x00C) p
  | [] => takeTurn s .engine p

/-- The step with the decided parameters: a command word runs by `exec`. -/
def takeInput (s : State) : Result := nextInput runCommand s

/-- A command word under any configuration (R6): the `CMD` write and, on an idle block, the engine's steps. -/
def commandUnder (p : Params) (w : Word) (s : State) : Result :=
  if s.busy then .next (setOvr s) else engineRun commandSteps (writeCommand s w) p

/-- The machine with its configuration as an argument (R6; log 8). At `params` it is `step`. -/
def configuredStep (p : Params) (s : State) : Result := nextInput (commandUnder p) s p

/-- The command word placed where the very next step takes it (log 2). -/
def placeCommand (s : State) (w : Word) : State := { s with input := .command w :: s.input }

end Sys2Proof.Machine
end

