-- ==== Sys2Proof/Safety.lean ====
section
/-! DEFINITION. The terms claims are made in: when a command may run, what it reads, what a legal state is, and when a
run is over. -/

namespace Sys2Proof.Machine

/-- A command presented now is accepted: neither busy nor holding an error (R240 cases 1 and 2). -/
abbrev State.ready (s : State) : Prop := s.busy = false ∧ s.err = false

/-- Every canvas cell a stage reads has been written (R89, R303). -/
abbrev State.canvasWritten (s : State) : Prop := ∀ k < s.canvasCells, (s.cnv.get k).isSome

/-- Every source cell `COMPOSE` reads has been written (R89, R303). -/
abbrev State.sourceWritten (s : State) : Prop := ∀ k < s.srcCells, (s.src.get k).isSome

/-- The canvas cell at `(x, y)` (R46). -/
def State.canvasPixel (s : State) (x y : Nat) : Pixel := (s.cnv.get (y * s.width + x)).getD 0

/-- `P(x, y, c)` of the canvas as it stands (R160). -/
def State.canvasChan (s : State) (x y : Nat) (c : Channel) : Int := chan (s.canvasPixel x y) c

/-- `AT(P, x, y, c)` of the canvas as it stands (R169). -/
def State.canvasAt (s : State) (x y : Int) (c : Channel) : Int :=
  s.canvasChan (clamp x 0 (s.width - 1)).toNat (clamp y 0 (s.height - 1)).toNat c

/-- The channel `c` of the source pixel at `(x, y)` (R45). -/
def State.sourceChan (s : State) (x y : Nat) (c : Channel) : Int :=
  chan ((s.src.get (y * s.srcWidth + x)).getD 0) c

/-- A run is over: the script has ended and the engine is idle (R313). -/
abbrev State.runOver (s : State) : Prop := s.input = [] ∧ s.busy = false

/-- The error fields agree with the table of R261: all zero without an error, otherwise one of the five codes with the
stage that can raise it. -/
def State.errorFieldsLegal (s : State) : Bool :=
  if s.err then
    (s.errCode == 1 && s.errStage == 0) || (s.errCode == 3 && decide (1 ≤ s.errStage) && decide (s.errStage ≤ 9)) ||
      ((s.errCode == 2 || s.errCode == 4 || s.errCode == 5) && s.errStage == 1)
  else s.errCode == 0 && s.errStage == 0

/-- The pointers fit their fields (R36 to R38). -/
def State.pointersLegal (s : State) (p : Params := params) : Bool :=
  decide (s.srcPtr.toNat < 2 ^ p.ptrBits) && decide (s.cnvPtr.toNat < 2 ^ p.ptrBits) &&
    decide (s.outPtr.toNat < 2 ^ p.ptrBits)

/-- The legal states. The memories are in canonical form (R45 to R48), and the pointers fit their fields; `STAGE` holds
0..9 (R43); the error fields
follow R261; stages are pending only while busy (R43, R242, R268); an error, `BUSY` and `DONE` exclude one another
(R267, R268, R240). -/
def State.inv (s : State) : Bool :=
  s.memWf && s.pointersLegal && decide (s.stage ≤ 9) && s.errorFieldsLegal && (s.busy || s.pend == 0) && !(s.err && s.busy) &&
    !(s.err && s.done) && !(s.busy && s.done)

end Sys2Proof.Machine
end

