-- ==== Sys2Proof/Certificates/Slice0/Obligations.lean ====
section
/-! DEFINITION. The statements for the provers. The formulas of the rules are written out here from the rules' text,
apart from the model's own definitions, so that a statement compares the two. -/

namespace Sys2Proof.Claims

open Sys2Proof.Machine

/-! ### The rules' formulas -/

/-- The sum of `f 0 .. f (n-1)`. -/
def sumTo (n : Nat) (f : Nat → Int) : Int := ((List.range n).map f).sum

/-- `Y(p)` (R161). -/
def lumaRule (r g b : Int) : Int := (19595 * r + 38470 * g + 7471 * b + 32768) / 65536

/-- `Y` of the canvas pixel at `(x, y)`. -/
def canvasLuma (s : State) (x y : Nat) : Int :=
  lumaRule (s.canvasChan x y .red) (s.canvasChan x y .green) (s.canvasChan x y .blue)

/-- `GM` of the canvas (R162). -/
def canvasMean (s : State) : Int :=
  let n : Int := (s.width * s.height : Nat)
  let SY := sumTo (s.width * s.height) fun k => canvasLuma s (k % s.width) (k / s.width)
  (2 * SY + n) / (2 * n)

/-- `BL(ref, v, F)` (R163). -/
def blendRule (ref v F : Int) : Int := max 0 (min 255 ((256 * ref + F * (v - ref) + 128) / 256))

/-- `SM` of the canvas (R167). -/
def smoothRule (s : State) (x y : Int) (c : Channel) : Int :=
  let t := 5 * s.canvasAt x y c +
    (s.canvasAt (x - 1) (y - 1) c + s.canvasAt x (y - 1) c + s.canvasAt (x + 1) (y - 1) c +
     s.canvasAt (x - 1) y c + s.canvasAt (x + 1) y c +
     s.canvasAt (x - 1) (y + 1) c + s.canvasAt x (y + 1) c + s.canvasAt (x + 1) (y + 1) c)
  (2 * t + 13) / 26

/-- `GB` of the canvas with taps `T[-r .. r]`, `T i` being `T[i - r]` (R170). -/
def blurRule (s : State) (r : Nat) (T : Nat → Int) (x y : Int) (c : Channel) : Int :=
  (sumTo (2 * r + 1) (fun j => sumTo (2 * r + 1) fun i => T i * T j * s.canvasAt (x + i - r) (y + j - r) c) + 32768) /
    65536

/-- `P_DN_TAPS` (R6, R171). -/
def denoiseTap : Nat → Int
  | 0 => 27
  | 1 => 202
  | 2 => 27
  | _ => 0

/-- `P_USM_TAPS` (R6, R172). -/
def unsharpTap : Nat → Int
  | 0 => 1
  | 1 => 14
  | 2 => 62
  | 3 => 102
  | 4 => 62
  | 5 => 14
  | 6 => 1
  | _ => 0

/-- The result of `UNSHARP` for a channel value `v` with blurred value `b` (R172). -/
def unsharpRule (amt thr v b : Int) : Int :=
  if v - b > thr ∨ b - v > thr then max 0 (min 255 (v + (amt * (v - b) + 128) / 256)) else v

/-- `KTAB` of the decided kernel, written out from R49, sixteen entries to a line. -/
def kernelTable : List Int :=
  [16384, 16377, 16355, 16318, 16267, 16202, 16122, 16028, 15921, 15799, 15664, 15515, 15354, 15179, 14993, 14794] ++
  [14583, 14361, 14128, 13884, 13630, 13366, 13093, 12811, 12521, 12223, 11917, 11605, 11287, 10962, 10633, 10299] ++
  [9960, 9618, 9273, 8926, 8576, 8226, 7874, 7522, 7170, 6819, 6470, 6122, 5776, 5434, 5094, 4758] ++
  [4427, 4100, 3778, 3462, 3151, 2847, 2549, 2258, 1975, 1699, 1431, 1171, 919, 676, 442, 216] ++
  [0, -207, -405, -593, -772, -941, -1101, -1251, -1391, -1522, -1643, -1755, -1858, -1951, -2035, -2111] ++
  [-2177, -2235, -2284, -2325, -2358, -2383, -2400, -2410, -2413, -2409, -2398, -2381, -2359, -2330, -2296, -2257] ++
  [-2213, -2165, -2113, -2056, -1996, -1933, -1867, -1799, -1728, -1654, -1580, -1504, -1426, -1348, -1269, -1190] ++
  [-1111, -1032, -953, -875, -798, -721, -646, -573, -501, -431, -362, -296, -232, -170, -111, -54] ++
  [0, 52, 100, 147, 190, 230, 268, 303, 335, 364, 390, 414, 435, 453, 468, 481] ++
  [492, 500, 506, 509, 511, 510, 507, 503, 497, 489, 479, 469, 457, 444, 429, 414] ++
  [398, 382, 365, 347, 329, 311, 292, 274, 256, 237, 219, 202, 184, 167, 151, 136] ++
  [121, 106, 93, 80, 68, 57, 47, 38, 30, 23, 17, 12, 7, 4, 2, 0] ++
  [0]

/-- `KW(n_in, n_out, xx, i)` with the decided kernel (R134, R49). -/
def weightRule (nIn nOut xx i : Nat) : Int :=
  let td : Nat := 2 * max nIn nOut
  let a : Nat := ((2 * (i : Int) + 1) * nOut - (2 * (xx : Int) + 1) * nIn).natAbs
  if 3 * td ≤ a then 0 else kernelTable.getD ((2 * a * 64 + td) / (2 * td)) 0

/-- `KSUM(n_in, n_out, xx)` (R134). -/
def weightSumRule (nIn nOut xx : Nat) : Int := sumTo nIn fun i => weightRule nIn nOut xx i

/-- Output sample `xx` of `RS(line, n_in, n_out)` (R135). -/
def resampleRule (line : Nat → Int) (nIn nOut xx : Nat) : Int :=
  let S := weightSumRule nIn nOut xx
  let N := sumTo nIn fun i => weightRule nIn nOut xx i * line i
  max 0 (min 255 ((2 * N + S) / (2 * S)))

/-- `newW` (R132). -/
def newWidth (s : State) : Nat :=
  if s.width * s.srcHeight ≤ s.height * s.srcWidth then s.width else s.srcWidth * s.height / s.srcHeight

/-- `newH` (R132). -/
def newHeight (s : State) : Nat :=
  if s.width * s.srcHeight ≤ s.height * s.srcWidth then s.srcHeight * s.width / s.srcWidth else s.height

/-- Channel `c` of `RSZ` at `(i, j)`: the horizontal pass of every source row, then the vertical pass (R136, R137). -/
def resizedRule (s : State) (i j : Nat) (c : Channel) : Int :=
  resampleRule (fun y => resampleRule (fun x => s.sourceChan x y c) s.srcWidth (newWidth s) i)
    s.srcHeight (newHeight s) j

/-- Channel `c` of the composed canvas at `(x, y)`: the resized image at its offset, black around it (R133, R138). -/
def composedRule (s : State) (x y : Nat) (c : Channel) : Int :=
  let ox := (s.width - newWidth s) / 2
  let oy := (s.height - newHeight s) / 2
  if ox ≤ x ∧ x < ox + newWidth s ∧ oy ≤ y ∧ y < oy + newHeight s then resizedRule s (x - ox) (y - oy) c else 0

/-- The dimensions `COMPOSE` accepts: none of its four pre-checks fails (R131). -/
def composeLegal (s : State) : Prop :=
  s.srcWidth ≠ 0 ∧ s.srcHeight ≠ 0 ∧ s.width ≠ 0 ∧ s.height ≠ 0 ∧ s.width * s.height ≤ 131072 ∧
    s.srcWidth * s.srcHeight ≤ 1048576 ∧ newWidth s ≠ 0 ∧ newHeight s ≠ 0 ∧
    (∀ xx < newWidth s, 0 < weightSumRule s.srcWidth (newWidth s) xx) ∧
    (∀ xx < newHeight s, 0 < weightSumRule s.srcHeight (newHeight s) xx)

/-- The canvas dimensions every stage accepts (R160). -/
def canvasUsable (s : State) : Prop := s.width ≠ 0 ∧ s.height ≠ 0 ∧ s.width * s.height ≤ 131072

/-! ### The pointer registers -/

/-- `IDX` of a pointer register as a word: bits 23:0 (R36 to R38). -/
def pointerOf (d : Word) : Word := BitVec.ofNat 32 (d.toNat % 2 ^ 24)

/-- `(i + 1) mod 2^24` (R75). -/
def pointerAfter (ptr : Word) : Word := BitVec.ofNat 32 ((ptr.toNat + 1) % 2 ^ 24)

/-! ### The shape of a command's result -/

/-- The state after an accepted command whose last stage was `stage` has completed (R240, R241, R242). -/
def completed (s : State) (w : Word) (stage : BitVec 4) : State :=
  { s with cur := w, pend := 0, stage := stage, done := true, busy := false }

/-- The state after an accepted command whose stage `stage` raised an error (R240, R241, R268). -/
def failed (s : State) (w : Word) (stage : BitVec 4) (code : BitVec 8) : State :=
  { s with
    cur := w, pend := 0, stage := stage, done := false, busy := false, err := true, errCode := code, errStage := stage }

/-- `cnv` holds `f` at every canvas position and channel, and what `s` holds in every cell at or beyond `W*H`. -/
def canvasIs (s : State) (cnv : Mem 24) (f : Nat → Nat → Channel → Int) : Prop :=
  (∀ x < s.width, ∀ y < s.height, ∀ c, (cnv.get (y * s.width + x)).map (chan · c) = some (f x y c)) ∧
    ∀ k, s.width * s.height ≤ k → cnv.get k = s.cnv.get k

/-- A stage of 2 to 8 as a command: on a usable and written canvas it completes and the canvas is `f`; on an unusable
one it records BAD_DIM and changes no memory and no result register. -/
def canvasCommand (i : Instr) (w : Word) (stage : BitVec 4) (s : State) (f : Nat → Nat → Channel → Int) : Prop :=
  (canvasUsable s → s.canvasWritten →
    ∃ cnv, exec i s = .next { completed s w stage with cnv := cnv } ∧ canvasIs s cnv f) ∧
  (¬ canvasUsable s → exec i s = .next (failed s w stage 0x03))

/-- The command of a stage (R101). -/
def commandOf : Stage → Instr
  | .compose => .compose
  | .contrast => .contrast
  | .bright => .bright
  | .color => .color
  | .sharp => .sharp
  | .denoise => .denoise
  | .unsharp => .unsharp
  | .gamma => .gamma
  | .dither => .dither

/-- The next state changed by `f`; a fault or a refusal as it is. -/
def mapNext (f : State → State) : Result → Result
  | .next t => .next (f t)
  | .fault r => .fault r
  | .refused r => .refused r

/-- The single-stage commands of the stages of a list, one after another, ending at the first that records an error. -/
def runSingles : List Stage → State → Result
  | [], s => .next s
  | st :: sts, s =>
    match exec (commandOf st) s with
    | .next t => if t.err then .next t else runSingles sts t
    | .fault r => .fault r
    | .refused r => .refused r

/-- The stages of a mask in ascending id. -/
def stagesOf (mask : BitVec 9) : List Stage := Stage.all.filter fun st => mask.getLsbD st.bit

/-- A row of the opcode map (R101). -/
structure MapRow where
  pattern : Word
  mask : Word
  instr : Word → Instr
  stages : Word → BitVec 9

/-- The opcode map (R101). -/
def opcodeMap : List MapRow :=
  [ ⟨0x00000000, 0xFFFFFFFF, fun _ => .nop, fun _ => 0x000⟩,
    ⟨0x01000000, 0xFFFFFFFF, fun _ => .compose, fun _ => 0x001⟩,
    ⟨0x02000000, 0xFFFFFFFF, fun _ => .contrast, fun _ => 0x002⟩,
    ⟨0x03000000, 0xFFFFFFFF, fun _ => .bright, fun _ => 0x004⟩,
    ⟨0x04000000, 0xFFFFFFFF, fun _ => .color, fun _ => 0x008⟩,
    ⟨0x05000000, 0xFFFFFFFF, fun _ => .sharp, fun _ => 0x010⟩,
    ⟨0x06000000, 0xFFFFFFFF, fun _ => .denoise, fun _ => 0x020⟩,
    ⟨0x07000000, 0xFFFFFFFF, fun _ => .unsharp, fun _ => 0x040⟩,
    ⟨0x08000000, 0xFFFFFFFF, fun _ => .gamma, fun _ => 0x080⟩,
    ⟨0x09000000, 0xFFFFFFFF, fun _ => .dither, fun _ => 0x100⟩,
    ⟨0x10000000, 0xFFFFFE00, fun w => .run (w.extractLsb' 0 24), fun w => w.extractLsb' 0 9⟩,
    ⟨0x7F000000, 0xFFFFFFFF, fun _ => .srst, fun _ => 0x000⟩ ]

/-! ### The quantizer's rules -/

/-- `QMAX` and `STEP` (R210). -/
def topCode : Channel → Int
  | .red => 31
  | .green => 63
  | .blue => 31
def stepOf : Channel → Int
  | .red => 2048
  | .green => 1024
  | .blue => 2048

/-- The clamped value of a `WORK` cell (R213). -/
def clampedRule (n : Int) : Int := max 0 (min 65280 n)

/-- The code of a clamped value (R214). -/
def codeRule (c : Channel) (vc : Int) : Int := min (topCode c) ((2 * vc + stepOf c) / (2 * stepOf c))

/-- The error left at a cell that reads `n` (R213, R214, R216). -/
def errorRule (c : Channel) (n : Int) : Int := clampedRule n - codeRule c (clampedRule n) * stepOf c

/-- The share of weight `w` of the error of a cell that reads `n` (R217). -/
def shareRule (c : Channel) (w n : Int) : Int := (errorRule c n * w + 8) / 16

/-- What `WORK[c]` holds at `(x, y)` once it has received the shares named of its west, north-west, north and north-east
neighbours, where those exist, `n` being what the scan reads: 256 times the channel and those shares (R211, R217). -/
def received (s : State) (n : Channel → Nat → Nat → Int) (c : Channel) (x y : Nat)
    (west northWest north northEast : Bool) : Int :=
  256 * s.canvasChan x y c +
    (if west = true ∧ 0 < x then shareRule c 7 (n c (x - 1) y) else 0) +
    (if northWest = true ∧ 0 < x ∧ 0 < y then shareRule c 1 (n c (x - 1) (y - 1)) else 0) +
    (if north = true ∧ 0 < y then shareRule c 5 (n c x (y - 1)) else 0) +
    (if northEast = true ∧ x + 1 < s.width ∧ 0 < y then shareRule c 3 (n c (x + 1) (y - 1)) else 0)

/-- `n c x y` is what the scan reads in `WORK[c]` at `(x, y)`: all four shares have been received (R211, R217, R218). -/
def diffused (s : State) (n : Channel → Nat → Nat → Int) : Prop :=
  ∀ c, ∀ x < s.width, ∀ y < s.height, n c x y = received s n c x y true true true true

end Sys2Proof.Claims

open Sys2Proof Sys2Proof.Machine Sys2Proof.Claims

/-! ### Encoding -/

/-- Decoding the word of a well-formed command gives the command back, `RUN` with every mask (R100 to R103). -/
def Obligations.DecodeInvertsEncode : Prop := ∀ i : Instr, i.wellFormed = true → decode (encode i) = .instr i

/-- R101: a word selects the row whose `(w AND mask) = match`, with the row's stage set; if no row matches it is
illegal. -/
def Obligations.DecodeFollowsOpcodeMap : Prop :=
  ∀ w : Word,
    (∀ row ∈ opcodeMap, w &&& row.mask = row.pattern →
      decode w = .instr (row.instr w) ∧ stageSet (row.instr w) = row.stages w) ∧
    ((∀ row ∈ opcodeMap, w &&& row.mask ≠ row.pattern) → ∃ why, decode w = .illegal why)

/-- R103: which words are illegal, and that a decoded command is a well-formed one whose word is that word. -/
def Obligations.IllegalWordsAreNamed : Prop :=
  ∀ w : Word,
    (decode w = .illegal .unknownOpcode ↔ 0x09 < w.toNat / 2 ^ 24 ∧ w.toNat / 2 ^ 24 ≠ 0x10 ∧ w.toNat / 2 ^ 24 ≠ 0x7F) ∧
    (decode w = .illegal .operandBits ↔
      (w.toNat / 2 ^ 24 ≤ 0x09 ∨ w.toNat / 2 ^ 24 = 0x7F) ∧ w.toNat % 2 ^ 24 ≠ 0 ∨
        w.toNat / 2 ^ 24 = 0x10 ∧ w.toNat % 2 ^ 24 / 2 ^ 9 ≠ 0) ∧
    (∀ i, decode w = .instr i → i.wellFormed = true ∧ encode i = w)

/-- Words written out from R101 and the illegal words of V-CTL-10. -/
def Obligations.DecodeSampleWords : Prop :=
  decode 0x00000000 = .instr .nop ∧ decode 0x01000000 = .instr .compose ∧ decode 0x05000000 = .instr .sharp ∧
    decode 0x08000000 = .instr .gamma ∧ decode 0x09000000 = .instr .dither ∧
    decode 0x10000181 = .instr (.run 0x181) ∧ decode 0x7F000000 = .instr .srst ∧
    decode 0x0A000000 = .illegal .unknownOpcode ∧ decode 0x01000001 = .illegal .operandBits ∧
    decode 0x10000200 = .illegal .operandBits

/-! ### A step, a command, the engine -/

/-- What a step does with the next entry of `input`. That the host's transactions, the engine's turns and whole commands
come as such a list, in its order, is the model's choice (log 1; log 3 on `command`, log 11 on the answer kept in
`resp`, log 19 on `wait`). A command word that decodes runs its command; one that does not is presented on `CMD` and
turned away or recorded as ILLEGAL_CMD (R240). A turn is one host transaction (R70), or an engine step, which the engine
has only while `BUSY = 1` (R241). `wait` is a poll of `STATUS` (R113), with an engine step and another poll to follow
while it reads `BUSY = 1`. -/
def Obligations.StepRunsDecodedCommand : Prop :=
  (∀ (s : State) (w : Word) (rest : List Input), s.input = .command w :: rest →
    (∀ i, decode w = .instr i → step s = exec i { s with input := rest }) ∧
    (∀ why, decode w = .illegal why →
      step s = .next
        (if s.busy = true ∨ s.err = true then { s with input := rest, ovr := true }
         else { s with input := rest, done := false, err := true, errCode := 0x01, errStage := 0 }))) ∧
  (∀ (s : State) (t : Turn) (rest : List Input), s.input = .turn t :: rest →
    step s = takeTurn { s with input := rest } t) ∧
  (∀ (s : State) (rest : List Input), s.input = .wait :: rest →
    step s = .next
      { s with
        input := if s.busy then .turn .engine :: .wait :: rest else rest
        resp := some (.data (statusWord s)) }) ∧
  ∀ s : State,
    (∀ width a, takeTurn s (.read width a) =
      .next { (hostRead s width a).2 with resp := some (hostRead s width a).1 }) ∧
    (∀ width a d, takeTurn s (.write width a d) = .next (hostWrite s width a d)) ∧
    takeTurn s .engine = if s.busy then engineStep s else .next s

/-- With nothing left in `input` the engine steps if `BUSY = 1` and otherwise nothing happens (log 2). -/
def Obligations.StepWithoutInputIsTheEngine : Prop :=
  ∀ s : State, s.input = [] → step s = if s.busy then engineStep s else .next s

/-- A well-formed command given to an idle block is its `CMD` write (R240) followed by at most ten engine steps
(R241): the fused command shows nothing the separate steps do not. So the machine that takes its configuration as an
argument (R6), whose commands are that write and those steps, is at the decided values the machine of `step` (log 8). -/
def Obligations.CommandIsWriteThenEngineSteps : Prop :=
  (∀ (i : Instr) (s : State), i.wellFormed = true → s.busy = false →
    exec i s = engineRun 10 (hostWrite s .word 0x008 (encode i))) ∧
  ∀ s : State, configuredStep params s = step s

/-- R240: the four cases of a `CMD` write, in their order. -/
def Obligations.CmdWriteHasFourCases : Prop :=
  ∀ (s : State) (w : Word),
    (s.busy = true → hostWrite s .word 0x008 w = { s with ovr := true }) ∧
    (s.busy = false → s.err = true → w ≠ 0x7F000000 → hostWrite s .word 0x008 w = { s with ovr := true }) ∧
    (s.busy = false → s.err = false → (∃ why, decode w = .illegal why) →
      hostWrite s .word 0x008 w = { s with done := false, err := true, errCode := 0x01, errStage := 0 }) ∧
    (s.busy = false → w = 0x7F000000 →
      hostWrite s .word 0x008 w =
        { State.reset with
          src := s.src, cnv := s.cnv, out := s.out, input := s.input, resp := s.resp, freeCount := s.freeCount }) ∧
    (∀ i, s.busy = false → s.err = false → decode w = .instr i → i ≠ .srst →
      hostWrite s .word 0x008 w = { s with cur := w, pend := stageSet i, done := false, busy := true })

/-- R247: while busy every command, every word and `SRST` too is discarded with `OVR`. -/
def Obligations.BusyDiscardsEveryCommand : Prop :=
  ∀ (s : State), s.busy = true →
    (∀ w, hostWrite s .word 0x008 w = { s with ovr := true }) ∧ ∀ i, exec i s = .next { s with ovr := true }

/-- R248: with an error recorded every command but `SRST` is discarded with `OVR`. -/
def Obligations.ErrorDiscardsAllButSrst : Prop :=
  ∀ (s : State), s.busy = false → s.err = true →
    (∀ w, w ≠ 0x7F000000 → hostWrite s .word 0x008 w = { s with ovr := true }) ∧
    (∀ i, i ≠ .srst → exec i s = .next { s with ovr := true }) ∧
    (hostWrite s .word 0x008 0x7F000000).err = false

/-- R242: with nothing pending the command completes; `STAGE` and `CUR` stay, and `irq` rises if `DONE_IE = 1`. -/
def Obligations.EngineStepCompletes : Prop :=
  ∀ s : State, s.pend = 0 →
    ∃ t, engineStep s = .next t ∧ t = { s with busy := false, done := true } ∧ (s.doneIe = true → t.irq = true)

/-- R241: the engine step takes the lowest-numbered pending stage, sets `STAGE`, executes it, and clears its bit or
records its error. -/
def Obligations.EngineStepTakesLowestStage : Prop :=
  ∀ (s : State) (st : Stage), s.pend.getLsbD st.bit = true → (∀ j < st.bit, s.pend.getLsbD j = false) →
    (∀ t, runStage st { s with stage := BitVec.ofNat 4 (st.bit + 1) } = .finished t →
      ∃ p, engineStep s = .next { t with pend := p } ∧ t.pend = s.pend ∧
        ∀ j < 9, p.getLsbD j = (s.pend.getLsbD j && decide (j ≠ st.bit))) ∧
    (∀ code, runStage st { s with stage := BitVec.ofNat 4 (st.bit + 1) } = .error code →
      engineStep s = .next
        { s with
          stage := BitVec.ofNat 4 (st.bit + 1), err := true, errCode := code.code,
          errStage := BitVec.ofNat 4 (st.bit + 1), pend := 0, busy := false })

/-- R250: whatever is pending, ten engine steps reach `BUSY = 0` (unless the model stops on an unwritten cell). -/
def Obligations.CommandEndsWithinTenSteps : Prop :=
  ∀ s : State,
    (∃ t, engineRun 10 s = .next t ∧ t.busy = false) ∨ ∃ m, engineRun 10 s = .fault (.unwrittenCell m)

/-! ### The commands -/

/-- R243: `NOP` completes with no effect but `CUR`, `PEND`, `DONE`, `BUSY`. -/
def Obligations.NopOnlyCompletes : Prop :=
  ∀ s : State, s.ready → exec .nop s = .next { s with cur := 0, pend := 0, done := true, busy := false }

/-- R130 to R139: `COMPOSE` on legal dimensions and a written source. -/
def Obligations.ComposeResizesAndCenters : Prop :=
  ∀ s : State, s.ready → composeLegal s → s.sourceWritten →
    ∃ cnv, exec .compose s = .next
        { completed s 0x01000000 1 with
          cnv := cnv
          newW := BitVec.ofNat 16 (newWidth s)
          newH := BitVec.ofNat 16 (newHeight s)
          offX := BitVec.ofNat 16 ((s.width - newWidth s) / 2)
          offY := BitVec.ofNat 16 ((s.height - newHeight s) / 2) } ∧
      canvasIs s cnv (composedRule s)

/-- R131: the four pre-checks of `COMPOSE`, in their order, each leaving every memory and result register as it was. The
spec knows of no dimensions on which the decided kernel fails the fourth and does not prove that there are none (R131,
R141), so the fourth stands twice: for the decided kernel, and for the machine configured with any kernel (R6, log 8;
log 21 for a kernel other than the two the spec defines). -/
def Obligations.ComposeErrorsInOrder : Prop :=
  ∀ s : State, s.ready →
    (s.srcWidth = 0 ∨ s.srcHeight = 0 → exec .compose s = .next (failed s 0x01000000 1 0x02)) ∧
    (s.srcWidth ≠ 0 → s.srcHeight ≠ 0 →
      (¬ canvasUsable s ∨ 1048576 < s.srcWidth * s.srcHeight → exec .compose s = .next (failed s 0x01000000 1 0x03)) ∧
      (canvasUsable s → s.srcWidth * s.srcHeight ≤ 1048576 →
        (newWidth s = 0 ∨ newHeight s = 0 → exec .compose s = .next (failed s 0x01000000 1 0x04)) ∧
        (newWidth s ≠ 0 → newHeight s ≠ 0 →
          ((∃ xx < newWidth s, weightSumRule s.srcWidth (newWidth s) xx ≤ 0) ∨
              (∃ xx < newHeight s, weightSumRule s.srcHeight (newHeight s) xx ≤ 0) →
            exec .compose s = .next (failed s 0x01000000 1 0x05)) ∧
          ∀ k : Kernel,
            (∃ xx < newWidth s, kernelSum k s.srcWidth (newWidth s) xx ≤ 0) ∨
              (∃ xx < newHeight s, kernelSum k s.srcHeight (newHeight s) xx ≤ 0) →
            composeError s { params with kernel := k } = some .kernel ∧
            engineRun 10 (hostWrite s .word 0x008 0x01000000) { params with kernel := k } =
              .next (failed s 0x01000000 1 0x05))))

/-- R164 with R162 and R163: `CONTRAST`. -/
def Obligations.ContrastBlendsAgainstTheMean : Prop :=
  ∀ s : State, s.ready →
    (canvasUsable s → s.canvasWritten →
      ∃ cnv mean, exec .contrast s = .next { completed s 0x02000000 2 with cnv := cnv, mean := mean } ∧
        (mean.toNat : Int) = canvasMean s ∧
        canvasIs s cnv fun x y c => blendRule (canvasMean s) (s.canvasChan x y c) s.contrast.toNat) ∧
    (¬ canvasUsable s → exec .contrast s = .next (failed s 0x02000000 2 0x03))

/-- R165 with `P_BRIGHT_REF = ZERO`: `BRIGHT` is a gain; `MEAN` is unchanged. -/
def Obligations.BrightScalesEveryChannel : Prop :=
  ∀ s : State, s.ready →
    canvasCommand .bright 0x03000000 3 s fun x y c => blendRule 0 (s.canvasChan x y c) s.bright.toNat

/-- R166 with R161 and R163: `COLOR`. -/
def Obligations.ColorBlendsAgainstTheLuminance : Prop :=
  ∀ s : State, s.ready →
    canvasCommand .color 0x04000000 4 s fun x y c => blendRule (canvasLuma s x y) (s.canvasChan x y c) s.color.toNat

/-- R168 with R167, R169 and R163: `SHARP`. -/
def Obligations.SharpBlendsAgainstTheSmoothedCanvas : Prop :=
  ∀ s : State, s.ready →
    canvasCommand .sharp 0x05000000 5 s fun x y c =>
      blendRule (smoothRule s x y c) (s.canvasChan x y c) s.sharp.toNat

/-- R171 with R169 and R170: `DENOISE`. -/
def Obligations.DenoiseBlursTheCanvas : Prop :=
  ∀ s : State, s.ready →
    canvasCommand .denoise 0x06000000 6 s fun x y c => blurRule s 1 denoiseTap x y c

/-- R172 with R169 and R170: `UNSHARP`. -/
def Obligations.UnsharpAmplifiesTheDifference : Prop :=
  ∀ s : State, s.ready →
    canvasCommand .unsharp 0x07000000 7 s fun x y c =>
      unsharpRule s.usmAmt.toNat s.usmThr.toNat (s.canvasChan x y c) (blurRule s 3 unsharpTap x y c)

/-- R200: `GAMMA`. -/
def Obligations.GammaMapsEveryChannel : Prop :=
  ∀ s : State, s.ready →
    canvasCommand .gamma 0x08000000 8 s fun x y c => (glutGet s.glut (s.canvasChan x y c).toNat).toNat

/-- R210 to R218 and R220: `DITHER` writes the codes of the error diffusion, and `CNV` and the cells of `OUT` at or
beyond `W*H` are unchanged; BAD_DIM on an unusable canvas. The bounds are the spec's own inference, R222 ("[derived: from
rules R211, R213, R216 and R217]"; log 7): of the error, of each share, and of every value a `WORK` cell holds, whichever
of its shares it has received. -/
def Obligations.DitherDiffusesTheError : Prop :=
  ∀ s : State, s.ready →
    (canvasUsable s → s.canvasWritten →
      ∃ out n, exec .dither s = .next { completed s 0x09000000 9 with out := out } ∧ diffused s n ∧
        (∀ x < s.width, ∀ y < s.height,
          (∀ c, -1024 ≤ n c x y ∧ n c x y ≤ 67072 ∧
            -1024 ≤ errorRule c (n c x y) ∧ errorRule c (n c x y) ≤ 1792 ∧
            -448 ≤ shareRule c 7 (n c x y) ∧ shareRule c 7 (n c x y) ≤ 784 ∧
            -64 ≤ shareRule c 1 (n c x y) ∧ shareRule c 1 (n c x y) ≤ 112 ∧
            -320 ≤ shareRule c 5 (n c x y) ∧ shareRule c 5 (n c x y) ≤ 560 ∧
            -192 ≤ shareRule c 3 (n c x y) ∧ shareRule c 3 (n c x y) ≤ 336 ∧
            ∀ west northWest north northEast,
              -1024 ≤ received s n c x y west northWest north northEast ∧
                received s n c x y west northWest north northEast ≤ 67072) ∧
          (out.get (y * s.width + x)).map (fun p => (p.toNat : Int)) =
            some (codeRule .red (clampedRule (n .red x y)) * 2048 + codeRule .green (clampedRule (n .green x y)) * 32 +
              codeRule .blue (clampedRule (n .blue x y)))) ∧
        ∀ k, s.width * s.height ≤ k → out.get k = s.out.get k) ∧
    (¬ canvasUsable s → exec .dither s = .next (failed s 0x09000000 9 0x03))

/-- R244: `RUN` with a non-empty mask does what the single-stage commands of its stages do one after another in
ascending id, ending at the first error, but for `CUR`; with the empty mask it completes at once. -/
def Obligations.RunIsItsStagesInOrder : Prop :=
  ∀ (s : State) (operand : BitVec 24), s.ready → operandReserved operand = 0 →
    (operandMask operand ≠ 0 →
      exec (.run operand) s =
        mapNext (fun t => { t with cur := 0x10#8 ++ operand }) (runSingles (stagesOf (operandMask operand)) s)) ∧
    (operandMask operand = 0 →
      exec (.run operand) s =
        .next { s with cur := 0x10#8 ++ operand, pend := 0, done := true, busy := false })

/-- `RUN` completes on usable dimensions when what its first stage reads is written: the source if `COMPOSE` is
selected, the canvas otherwise. It changes no operand, pointer, table or source; a mask without bits 0 to 7 leaves
`CNV`, a mask without bit 8 leaves `OUT` (R244). -/
def Obligations.RunCompletesOnALoadedImage : Prop :=
  ∀ (s : State) (operand : BitVec 24), s.ready → operandReserved operand = 0 → canvasUsable s →
    (if (operandMask operand).getLsbD 0 then composeLegal s ∧ s.sourceWritten else s.canvasWritten) →
    ∃ t, exec (.run operand) s = .next t ∧
      t = { completed s (0x10#8 ++ operand) t.stage with
            cnv := t.cnv, out := t.out, newW := t.newW, newH := t.newH, offX := t.offX, offY := t.offY,
            mean := t.mean } ∧
      (∀ st : Stage, (operandMask operand).getLsbD st.bit = true →
        (∀ j < 9, st.bit < j → (operandMask operand).getLsbD j = false) → t.stage = BitVec.ofNat 4 (st.bit + 1)) ∧
      ((operandMask operand) &&& 0x0FF = 0 → t.cnv = s.cnv) ∧
      ((operandMask operand).getLsbD 8 = false → t.out = s.out)

/-- R103: a `RUN` word with a bit of `RSV` set is illegal, whatever else it holds. -/
def Obligations.RunWithReservedBitsIsIllegal : Prop :=
  ∀ (s : State) (operand : BitVec 24), operandReserved operand ≠ 0 → s.ready →
    exec (.run operand) s = .next { s with done := false, err := true, errCode := 0x01, errStage := 0 }

/-- R245: `SRST`, also with `ERR = 1`, wholly at the `CMD` write; with `BUSY = 1` it is discarded. -/
def Obligations.SrstRestoresResetValues : Prop :=
  ∀ s : State,
    (s.busy = false →
      exec .srst s = .next (hostWrite s .word 0x008 0x7F000000) ∧
      hostWrite s .word 0x008 0x7F000000 =
        { State.reset with
          src := s.src, cnv := s.cnv, out := s.out, input := s.input, resp := s.resp, freeCount := s.freeCount }) ∧
    (s.busy = true → exec .srst s = .next { s with ovr := true })

/-- R246, the spec's own inference ("[derived: from 30_encoding.md rule R102 and rules R240, R241]"): a single-stage
command is `RUN` with its one bit, but for `CUR`: after the `CMD` write (the same `PEND`), after every number of engine
steps, and as a whole command. -/
def Obligations.SingleStageEqualsRun : Prop :=
  ∀ (st : Stage) (s : State), s.ready →
    (∀ n, engineRun n (hostWrite s .word 0x008 (BitVec.ofNat 32 ((st.bit + 1) * 2 ^ 24))) =
      mapNext (fun t => { t with cur := BitVec.ofNat 32 ((st.bit + 1) * 2 ^ 24) })
        (engineRun n (hostWrite s .word 0x008 (BitVec.ofNat 32 (2 ^ 28 + 2 ^ st.bit))))) ∧
    exec (commandOf st) s =
      mapNext (fun t => { t with cur := encode (commandOf st) }) (exec (.run (BitVec.ofNat 24 (2 ^ st.bit))) s)

/-- The model's choices on unwritten cells. A stage that would read one stops the model, whatever else the state holds
(R89, U1; log 4: the hardware goes on with an unspecified value). A host read of one on an idle block goes on with a
free value of the cell's width and advances the pointer, also with an error recorded (U1; log 5). -/
def Obligations.UnwrittenCellsStopStagesNotReads : Prop :=
  ∀ s : State, s.busy = false →
    (s.err = false → canvasUsable s → ¬ s.canvasWritten →
      ∀ st : Stage, st ≠ .compose → exec (commandOf st) s = .fault (.unwrittenCell .cnv)) ∧
    (s.err = false → composeLegal s → ¬ s.sourceWritten → exec .compose s = .fault (.unwrittenCell .src)) ∧
    (s.srcPtr.toNat < 1048576 → s.src.get s.srcPtr.toNat = none →
      ∃ v : Pixel, hostRead s .word 0x044 =
        (.data (v.setWidth 32), { s with srcPtr := s.srcPtr + 1, freeCount := s.freeCount + 1 })) ∧
    (s.cnvPtr.toNat < 131072 → s.cnv.get s.cnvPtr.toNat = none →
      ∃ v : Pixel, hostRead s .word 0x04C =
        (.data (v.setWidth 32), { s with cnvPtr := s.cnvPtr + 1, freeCount := s.freeCount + 1 })) ∧
    (s.outPtr.toNat < 131072 → s.out.get s.outPtr.toNat = none →
      ∃ v : Packed, hostRead s .word 0x054 =
        (.data (v.setWidth 32), { s with outPtr := s.outPtr + 1, freeCount := s.freeCount + 1 }))

/-! ### Errors -/

/-- R269: an engine step that records an error writes no memory and no result register. -/
def Obligations.ErrorsArePrecise : Prop :=
  ∀ s t : State, s.err = false → engineStep s = .next t → t.err = true →
    t = { s with
          stage := t.stage, err := true, errCode := t.errCode, errStage := t.stage, pend := 0, busy := false } ∧
      t.errCode ≠ 0

/-- R262, R268: an illegal word presented on `CMD` to a ready block. -/
def Obligations.IllegalWordRecordsAnError : Prop :=
  ∀ (s : State) (w : Word) (why : Illegal), s.ready → decode w = .illegal why →
    hostWrite s .word 0x008 w = { s with done := false, err := true, errCode := 0x01, errStage := 0 }

/-- R271: a recorded error keeps its code and stage through every step but an acknowledgement, an `SRST` or a hardware
reset. -/
def Obligations.NoSecondErrorBeforeAcknowledgement : Prop :=
  ∀ s t : State, s.inv = true → s.err = true → step s = .next t →
    (t.err = true ∧ t.errCode = s.errCode ∧ t.errStage = s.errStage) ∨
    (∃ d rest, s.input = .turn (.write .word 0x00C d) :: rest ∧ d.getLsbD 2 = true) ∨
    (∃ rest, s.input = .turn (.write .word 0x008 0x7F000000) :: rest) ∨
    (∃ rest, s.input = .command 0x7F000000 :: rest) ∨
    (∃ rest, s.input = .turn .hardReset :: rest)

/-! ### The host port -/

/-- R31: the fields of `STATUS` in the word a read returns. -/
def Obligations.StatusWordFields : Prop :=
  ∀ s : State, ∃ d, hostRead s .word 0x00C = (.data d, s) ∧
    d.getLsbD 0 = s.busy ∧ d.getLsbD 1 = s.done ∧ d.getLsbD 2 = s.err ∧ d.getLsbD 3 = s.ovr ∧
    d.extractLsb' 4 4 = s.stage ∧ d.extractLsb' 8 8 = s.errCode ∧ d.extractLsb' 16 4 = s.errStage ∧
    d.extractLsb' 20 12 = 0

/-- R249: a `STATUS` write clears the flags it names and touches nothing else; a completion after it sets `DONE`. -/
def Obligations.StatusWriteClearsNamedFlags : Prop :=
  ∀ (s : State) (d : Word),
    hostWrite s .word 0x00C d =
      { s with
        done := s.done && !d.getLsbD 1
        err := s.err && !d.getLsbD 2
        errCode := if d.getLsbD 2 then 0 else s.errCode
        errStage := if d.getLsbD 2 then 0 else s.errStage
        ovr := s.ovr && !d.getLsbD 3 } ∧
    (s.pend = 0 → ∃ t, engineStep (hostWrite s .word 0x00C d) = .next t ∧ t.done = true)

/-- R273, R32: the interrupt output, and the two enables that a write of `INT_EN` sets and a read returns, both at any
time. -/
def Obligations.InterruptIsALevel : Prop :=
  ∀ s : State, (s.irq = true ↔ (s.done = true ∧ s.doneIe = true) ∨ (s.err = true ∧ s.errIe = true)) ∧
    (∀ d, hostWrite s .word 0x010 d = { s with doneIe := d.getLsbD 0, errIe := d.getLsbD 1 }) ∧
    ∃ d, hostRead s .word 0x010 = (.data d, s) ∧
      d.getLsbD 0 = s.doneIe ∧ d.getLsbD 1 = s.errIe ∧ d.extractLsb' 2 30 = 0

/-- The operand registers: an idle write stores the field bits and drops the reserved bits, and a read gives them back
(R21 to R27). -/
def Obligations.OperandRegistersReadBack : Prop :=
  ∀ (s : State) (d : Word), s.busy = false →
    hostRead (hostWrite s .word 0x018 d) .word 0x018 =
      (.data d, { s with srcW := d.extractLsb' 0 16, srcH := d.extractLsb' 16 16 }) ∧
    hostRead (hostWrite s .word 0x01C d) .word 0x01C =
      (.data d, { s with canvasW := d.extractLsb' 0 16, canvasH := d.extractLsb' 16 16 }) ∧
    hostRead (hostWrite s .word 0x020 d) .word 0x020 = (.data (d &&& 0xFFF), { s with contrast := d.setWidth 12 }) ∧
    hostRead (hostWrite s .word 0x024 d) .word 0x024 = (.data (d &&& 0xFFF), { s with bright := d.setWidth 12 }) ∧
    hostRead (hostWrite s .word 0x028 d) .word 0x028 = (.data (d &&& 0xFFF), { s with color := d.setWidth 12 }) ∧
    hostRead (hostWrite s .word 0x02C d) .word 0x02C = (.data (d &&& 0xFFF), { s with sharp := d.setWidth 12 }) ∧
    hostRead (hostWrite s .word 0x030 d) .word 0x030 =
      (.data (d &&& 0xFF0FFF), { s with usmAmt := d.extractLsb' 0 12, usmThr := d.extractLsb' 16 8 })

/-- The read-only registers and constants, read at any time without a side effect, and their writes ignored (R28, R29,
R33 to R35). -/
def Obligations.ReadOnlyRegisters : Prop :=
  ∀ (s : State) (d : Word),
    hostRead s .word 0x000 = (.data 0x4C524E31, s) ∧ hostRead s .word 0x004 = (.data 0x00141181, s) ∧
    hostRead s .word 0x008 = (.data 0, s) ∧ hostRead s .word 0x034 = (.data (s.newH ++ s.newW), s) ∧
    hostRead s .word 0x038 = (.data (s.offY ++ s.offX), s) ∧ hostRead s .word 0x03C = (.data (s.mean.setWidth 32), s) ∧
    hostWrite s .word 0x000 d = s ∧ hostWrite s .word 0x004 d = s ∧ hostWrite s .word 0x034 d = s ∧
    hostWrite s .word 0x038 d = s ∧ hostWrite s .word 0x03C d = s

/-- R82: what the engine owns while `BUSY = 1`: writes are discarded and reads of data ports and `GLUT` return 0, each
with `OVR` and no other change. -/
def Obligations.BusyBlocksHostAccess : Prop :=
  ∀ (s : State) (a : Offset) (d : Word), s.busy = true → a.toNat % 4 = 0 →
    ((0x018 ≤ a.toNat ∧ a.toNat ≤ 0x030) ∨ (0x040 ≤ a.toNat ∧ a.toNat ≤ 0x050) ∨
        (0x400 ≤ a.toNat ∧ a.toNat < 0x800) ∨ a = 0x008 →
      hostWrite s .word a d = { s with ovr := true }) ∧
    (a = 0x044 ∨ a = 0x04C ∨ a = 0x054 ∨ (0x400 ≤ a.toNat ∧ a.toNat < 0x800) →
      hostRead s .word a = (.data 0, { s with ovr := true })) ∧
    (a ≠ 0x00C → a ≠ 0x044 → a ≠ 0x04C → a ≠ 0x054 → ¬ (0x400 ≤ a.toNat ∧ a.toNat < 0x800) →
      hostRead s .word a = ((hostRead { s with busy := false } .word a).1, s)) ∧
    hostRead s .word 0x00C = (.data (statusWord s), s) ∧
    (a = 0x00C ∨ a = 0x010 →
      hostWrite s .word a d = { hostWrite { s with busy := false } .word a d with busy := true }) ∧
    (a = 0x000 ∨ a = 0x004 ∨ a = 0x034 ∨ a = 0x038 ∨ a = 0x03C ∨ a = 0x054 ∨ a = 0x014 ∨
        (0x058 ≤ a.toNat ∧ a.toNat < 0x400) ∨ 0x800 ≤ a.toNat →
      hostWrite s .word a d = s)

/-- R72: a transfer that is not an aligned 32-bit word is no transaction. -/
def Obligations.MalformedTransfersChangeNothing : Prop :=
  ∀ (s : State) (width : Width) (a : Offset) (d : Word), width ≠ .word ∨ a.toNat % 4 ≠ 0 →
    hostRead s width a = (.busError, s) ∧ hostWrite s width a d = s

/-- R56 and R71: the offsets the map does not assign read 0 and ignore writes, busy or idle. -/
def Obligations.ReservedOffsetsReadZero : Prop :=
  ∀ (s : State) (a : Offset) (d : Word), a.toNat % 4 = 0 →
    a.toNat = 0x014 ∨ (0x058 ≤ a.toNat ∧ a.toNat < 0x400) ∨ 0x800 ≤ a.toNat →
    hostRead s .word a = (.data 0, s) ∧ hostWrite s .word a d = s

/-- R75: the `SRC` port with `BUSY = 0`, for cells that are written or do not exist. Bits 31:24 of the state's pointer,
which are 0 in every legal state, play no part. -/
def Obligations.SrcPortStoresAndAdvances : Prop :=
  ∀ (s : State) (d : Word), s.busy = false →
    hostWrite s .word 0x040 d = { s with srcPtr := pointerOf d } ∧
    hostRead s .word 0x040 = (.data (pointerOf s.srcPtr), s) ∧
    (∃ src, hostWrite s .word 0x044 d = { s with src := src, srcPtr := pointerAfter s.srcPtr } ∧
      ∀ i, src.get i = if i = (pointerOf s.srcPtr).toNat ∧ i < 1048576 then some (d.setWidth 24) else s.src.get i) ∧
    (∀ p, (pointerOf s.srcPtr).toNat < 1048576 → s.src.get (pointerOf s.srcPtr).toNat = some p →
      hostRead s .word 0x044 = (.data (p.setWidth 32), { s with srcPtr := pointerAfter s.srcPtr })) ∧
    (1048576 ≤ (pointerOf s.srcPtr).toNat → hostRead s .word 0x044 = (.data 0, { s with srcPtr := pointerAfter s.srcPtr }))

/-- R76: the `CNV` port with `BUSY = 0`, for cells that are written or do not exist. Bits 31:24 of the state's pointer,
which are 0 in every legal state, play no part. -/
def Obligations.CnvPortStoresAndAdvances : Prop :=
  ∀ (s : State) (d : Word), s.busy = false →
    hostWrite s .word 0x048 d = { s with cnvPtr := pointerOf d } ∧
    hostRead s .word 0x048 = (.data (pointerOf s.cnvPtr), s) ∧
    (∃ cnv, hostWrite s .word 0x04C d = { s with cnv := cnv, cnvPtr := pointerAfter s.cnvPtr } ∧
      ∀ i, cnv.get i = if i = (pointerOf s.cnvPtr).toNat ∧ i < 131072 then some (d.setWidth 24) else s.cnv.get i) ∧
    (∀ p, (pointerOf s.cnvPtr).toNat < 131072 → s.cnv.get (pointerOf s.cnvPtr).toNat = some p →
      hostRead s .word 0x04C = (.data (p.setWidth 32), { s with cnvPtr := pointerAfter s.cnvPtr })) ∧
    (131072 ≤ (pointerOf s.cnvPtr).toNat → hostRead s .word 0x04C = (.data 0, { s with cnvPtr := pointerAfter s.cnvPtr }))

/-- R77: the `OUT` port with `BUSY = 0`, for cells that are written or do not exist; `OUT_DATA` ignores writes. Bits 31:24 of
the state's pointer, which are 0 in every legal state, play no part. -/
def Obligations.OutPortReadsAndAdvances : Prop :=
  ∀ (s : State) (d : Word), s.busy = false →
    hostWrite s .word 0x050 d = { s with outPtr := pointerOf d } ∧
    hostRead s .word 0x050 = (.data (pointerOf s.outPtr), s) ∧
    hostWrite s .word 0x054 d = s ∧
    (∀ p, (pointerOf s.outPtr).toNat < 131072 → s.out.get (pointerOf s.outPtr).toNat = some p →
      hostRead s .word 0x054 = (.data (p.setWidth 32), { s with outPtr := pointerAfter s.outPtr })) ∧
    (131072 ≤ (pointerOf s.outPtr).toNat → hostRead s .word 0x054 = (.data 0, { s with outPtr := pointerAfter s.outPtr }))

/-- R78: the `GLUT` aperture with `BUSY = 0`. -/
def Obligations.GlutApertureStoresOneByte : Prop :=
  ∀ (s : State) (v : Nat) (d : Word), s.busy = false → v < 256 →
    hostRead s .word (BitVec.ofNat 12 (0x400 + 4 * v)) = (.data ((glutGet s.glut v).setWidth 32), s) ∧
    ∃ glut, hostWrite s .word (BitVec.ofNat 12 (0x400 + 4 * v)) d = { s with glut := glut } ∧
      ∀ u, glutGet glut u = if u = v then d.setWidth 8 else glutGet s.glut u

/-! ### Reset -/

/-- R54: the values after reset, read through the port where the port shows them. -/
def Obligations.ResetValues : Prop :=
  hostRead State.reset .word 0x000 = (.data 0x4C524E31, State.reset) ∧
    hostRead State.reset .word 0x004 = (.data 0x00141181, State.reset) ∧
    hostRead State.reset .word 0x00C = (.data 0, State.reset) ∧ hostRead State.reset .word 0x010 = (.data 0, State.reset) ∧
    hostRead State.reset .word 0x018 = (.data 0, State.reset) ∧
    hostRead State.reset .word 0x01C = (.data 0x00F00140, State.reset) ∧
    hostRead State.reset .word 0x020 = (.data 307, State.reset) ∧
    hostRead State.reset .word 0x024 = (.data 282, State.reset) ∧
    hostRead State.reset .word 0x028 = (.data 307, State.reset) ∧
    hostRead State.reset .word 0x02C = (.data 384, State.reset) ∧
    hostRead State.reset .word 0x030 = (.data 0x00030180, State.reset) ∧
    hostRead State.reset .word 0x034 = (.data 0, State.reset) ∧
    hostRead State.reset .word 0x038 = (.data 0, State.reset) ∧
    hostRead State.reset .word 0x03C = (.data 0, State.reset) ∧
    State.reset.srcPtr = 0 ∧ State.reset.cnvPtr = 0 ∧ State.reset.outPtr = 0 ∧ State.reset.cur = 0 ∧
    State.reset.pend = 0 ∧ State.reset.irq = false ∧
    (∀ v < 256, (glutGet State.reset.glut v).toNat = gamma12.getD v 0) ∧
    ∀ k, State.reset.src.get k = none ∧ State.reset.cnv.get k = none ∧ State.reset.out.get k = none

/-- R50: entry `v` of the reset table is the `k` with `k^6 <= 255*v^5 < (k+1)^6`. -/
def Obligations.GammaTableIsTheSixthRoot : Prop :=
  gamma12.length = 256 ∧ ∀ v < 256, ∃ k, gamma12[v]? = some k ∧ k ^ 6 ≤ 255 * v ^ 5 ∧ 255 * v ^ 5 < (k + 1) ^ 6

/-- R300, R302, R55, U1, U2: the hardware reset at any time gives every register its reset value. On an idle block no
cell of `SRC`, `CNV` and `OUT` is written afterwards; on a busy one every cell the stage being executed could have
written is unwritten. Which stage that is, is the model's inference (log 10); that all other cells of a busy block keep
their values, as U2 says, is its choice where R54, R55, R301 and U1 differ from U2 (log 18). -/
def Obligations.HardResetAbandonsTheCommand : Prop :=
  ∀ s : State, ∃ src cnv out,
    takeTurn s .hardReset = .next
      { State.reset with
        src := src, cnv := cnv, out := out, input := s.input, resp := s.resp, freeCount := s.freeCount } ∧
    (s.busy = false → src = [] ∧ cnv = [] ∧ out = []) ∧
    (s.busy = true → src = s.src) ∧
    (s.busy = true → s.pend = 0 → cnv = s.cnv ∧ out = s.out) ∧
    (s.busy = true → ∀ st : Stage, s.pend.getLsbD st.bit = true → (∀ j < st.bit, s.pend.getLsbD j = false) →
      (st ≠ .dither → out = s.out ∧
        ((∀ code, runStage st s ≠ .error code) → ∀ k, cnv.get k = if k < s.canvasCells then none else s.cnv.get k) ∧
        ((∃ code, runStage st s = .error code) → cnv = s.cnv)) ∧
      (st = .dither → cnv = s.cnv ∧
        ((∀ code, runStage st s ≠ .error code) → ∀ k, out.get k = if k < s.canvasCells then none else s.out.get k) ∧
        ((∃ code, runStage st s = .error code) → out = s.out)))

/-! ### Invariants and whole-machine rules -/

/-- Every step keeps the legal states: canonical memories, pointers inside their 24 bits, `STAGE` in 0..9, error fields as
in R261, stages pending only while busy, `BUSY`, `DONE` and `ERR` exclusive. -/
def Obligations.EveryStepKeepsTheInvariant : Prop :=
  ∀ s t : State, s.inv = true → step s = .next t → t.inv = true

/-- The state after reset is legal. -/
def Obligations.ResetIsLegal : Prop := State.reset.inv = true

/-- R82, R83, U5: a host transaction while a command runs changes nothing the engine reads or writes, so the command
ends in the same state whenever the transaction falls, but for `OVR`, the interrupt enables and the answer of a read. -/
def Obligations.HostCannotDisturbARunningCommand : Prop :=
  ∀ (s t u : State) (n : Nat) (x : Turn), s.inv = true → s.busy = true → x ≠ .engine → x ≠ .hardReset →
    takeTurn s x = .next t → engineRun n s = .next u →
    engineRun n t = .next { u with ovr := t.ovr, doneIe := t.doneIe, errIe := t.errIe, resp := t.resp }

/-- R3, R88: no stage reads `OUT`, and stages 1 to 8 do not write it; no stage but `COMPOSE` reads `SRC`; `DITHER`
does not write `CNV`. -/
def Obligations.DataFlowsForward : Prop :=
  ∀ (s : State) (o : Mem 16) (m : Mem 24) (st : Stage),
    (st ≠ .dither →
      exec (commandOf st) { s with out := o } = mapNext (fun t => { t with out := o }) (exec (commandOf st) s)) ∧
    (st ≠ .compose →
      exec (commandOf st) { s with src := m } = mapNext (fun t => { t with src := m }) (exec (commandOf st) s)) ∧
    (∀ t u, exec .dither s = .next t → exec .dither { s with out := o } = .next u →
      t.cnv = s.cnv ∧ (t.done = true → s.ready →
        { u with out := t.out } = t ∧ ∀ k < s.canvasCells, u.out.get k = t.out.get k))

/-- The engine reads the operand registers and never writes them, nor the pointers, the enables, `SRC` or `GLUT`; only
`SRST` changes them (10_state.md section 2, R45, R82). -/
def Obligations.CommandsKeepOperandsAndSource : Prop :=
  ∀ (i : Instr) (s t : State), i ≠ .srst → exec i s = .next t →
    t = { s with
          busy := t.busy, done := t.done, err := t.err, ovr := t.ovr, stage := t.stage, errCode := t.errCode,
          errStage := t.errStage, newW := t.newW, newH := t.newH, offX := t.offX, offY := t.offY, mean := t.mean,
          cur := t.cur, pend := t.pend, cnv := t.cnv, out := t.out }

/-- R132, R133: neither resized dimension exceeds the canvas, one equals it, and the offsets center the image with the
odd column and row on the right and at the bottom. -/
def Obligations.GeometryFitsTheCanvas : Prop :=
  ∀ srcW srcH w h : Nat, srcW ≠ 0 → srcH ≠ 0 →
    let g := geometry srcW srcH w h
    g.newW ≤ w ∧ g.newH ≤ h ∧ (g.newW = w ∨ g.newH = h) ∧
      g.offX ≤ w - (g.offX + g.newW) ∧ w - (g.offX + g.newW) ≤ g.offX + 1 ∧
      g.offY ≤ h - (g.offY + g.newH) ∧ h - (g.offY + g.newH) ≤ g.offY + 1

/-- The decided kernel is the table of R49, with the properties R49 lists; from its zeros follows property 1 of R140: a
line is copied when the size does not change. -/
def Obligations.ResamplerCopiesEqualSizes : Prop :=
  (params.kernel = lanczos3 ∧ lanczos3.support = 3 ∧ lanczos3.resolution = 64 ∧ lanczos3.table = kernelTable ∧
    kernelTable.length = 193 ∧ kernelTable[0]? = some 16384 ∧
    (∀ i, i = 64 ∨ i = 128 ∨ i = 191 ∨ i = 192 → kernelTable[i]? = some 0) ∧
    ∀ i v, kernelTable[i]? = some v →
      (1 ≤ i ∧ i ≤ 63 ∨ 129 ≤ i ∧ i ≤ 190 → 0 < v) ∧ (65 ≤ i ∧ i ≤ 127 → v < 0)) ∧
  ∀ line : List Int, (∀ v ∈ line, 0 ≤ v ∧ v ≤ 255) → resample lanczos3 line line.length = line

/-- R140 property 2: a line of one value gives that value, wherever the weight sums are positive. -/
def Obligations.ResamplerKeepsFlatLines : Prop :=
  ∀ (n nOut : Nat) (v : Int), 0 ≤ v → v ≤ 255 → axisPositive lanczos3 n nOut = true →
    resample lanczos3 (List.replicate n v) nOut = List.replicate nOut v

/-- R214, R216, R223 properties 1 and 2: codes are in range, an exactly representable value keeps its code with error
0, and the error of any other value stays in the bounds of R216. -/
def Obligations.QuantizerBoundsAndIdempotence : Prop :=
  ∀ c : Channel,
    (∀ vc : Int, 0 ≤ vc → vc ≤ 65280 →
      0 ≤ quantize .halfUp c vc ∧ quantize .halfUp c vc ≤ topCode c ∧
        -(stepOf c / 2) ≤ quantError c vc (quantize .halfUp c vc) ∧
        quantError c vc (quantize .halfUp c vc) ≤ 65280 - topCode c * stepOf c) ∧
    (∀ q : Int, 0 ≤ q → q ≤ topCode c →
      quantize .halfUp c (q * stepOf c) = q ∧ quantError c (q * stepOf c) q = 0)

/-- R163: the blend and its properties. -/
def Obligations.BlendInterpolates : Prop :=
  ∀ ref v F : Int, 0 ≤ ref → ref ≤ 255 → 0 ≤ v → v ≤ 255 →
    blend ref v F = blendRule ref v F ∧ blend ref v 256 = v ∧ blend ref v 0 = ref ∧ blend ref ref F = ref

/-- R161: the luminance of a gray pixel is its value, and every luminance is in 0..255. -/
def Obligations.LuminanceOfGrayIsItsValue : Prop :=
  ∀ p : Pixel,
    luma params p = lumaRule (chan p .red) (chan p .green) (chan p .blue) ∧ 0 ≤ luma params p ∧ luma params p ≤ 255 ∧
      (chan p .red = chan p .green → chan p .green = chan p .blue → luma params p = chan p .red)

/-- A write of a cell is what a later read of it gives, every other cell is untouched, and the canonical form stays
(10_state.md section 6). -/
def Obligations.MemoryReadAfterWrite : Prop :=
  ∀ (m : Mem 24) (size i : Nat) (v : Pixel), Mem.wf size m = true → i < size →
    Mem.wf size (m.put i v) = true ∧ ∀ j, (m.put i v).get j = if j = i then some v else m.get j
end

