-- ==== Sys2Proof/Laws/Memory.lean ====
section
/-! SUPPORT. What the memory operations do, said once: the cell read after each write, and that every write keeps the
canonical form. -/

namespace Sys2Proof.Machine

variable {w : Nat}

/-! ### What a cell reads as after an operation -/

@[simp] theorem Mem.get_nil (i : Nat) : Mem.get ([] : Mem w) i = none := rfl

theorem Mem.get_cons (k : Nat) (v : BitVec w) (m : Mem w) (i : Nat) :
    Mem.get ((k, v) :: m) i = if k = i then some v else m.get i := rfl

theorem Mem.get_put (m : Mem w) (i : Nat) (v : BitVec w) (j : Nat) :
    (m.put i v).get j = if j = i then some v else m.get j := by
  induction m with
  | nil => simp [Mem.put, Mem.get, eq_comm]
  | cons c m ih =>
    obtain ⟨k, u⟩ := c
    by_cases hj : j = i
    · subst hj
      rw [if_pos rfl] at ih ⊢
      unfold Mem.put
      split
      · rw [Mem.get_cons, if_pos rfl]
      · split
        · rw [Mem.get_cons, if_pos rfl]
        · rw [Mem.get_cons, if_neg (by omega), ih]
    · rw [if_neg hj] at ih ⊢
      unfold Mem.put
      split
      · rw [Mem.get_cons, if_neg (by omega)]
      · split
        · rw [Mem.get_cons, Mem.get_cons, if_neg (by omega), if_neg (by omega)]
        · rw [Mem.get_cons, Mem.get_cons, ih]

theorem Mem.get_filter (m : Mem w) (p : Nat → Bool) (j : Nat) :
    Mem.get (m.filter fun c => p c.1) j = if p j then m.get j else none := by
  induction m with
  | nil => simp
  | cons c m ih =>
    obtain ⟨k, u⟩ := c
    simp only [List.filter_cons]
    by_cases hk : k = j
    · subst hk
      by_cases hp : p k <;> simp [hp, Mem.get_cons, ih]
    · by_cases hp : p k <;> simp [hp, hk, Mem.get_cons, ih]

theorem Mem.get_erase (m : Mem w) (i j : Nat) : (m.erase i).get j = if j = i then none else m.get j := by
  rw [Mem.erase, Mem.get_filter m (fun k => k != i)]; by_cases h : j = i <;> simp [h]

theorem Mem.get_dropBelow (m : Mem w) (n j : Nat) : (m.dropBelow n).get j = if j < n then none else m.get j := by
  rw [Mem.dropBelow, Mem.get_filter m (fun k => decide (n ≤ k))]
  by_cases h : j < n
  · simp [h, Nat.not_le.2 h]
  · simp [h, Nat.not_lt.1 h]

theorem Mem.get_append (m l : Mem w) (j : Nat) : Mem.get (m ++ l) j = (m.get j).or (Mem.get l j) := by
  induction m with
  | nil => simp
  | cons c m ih =>
    obtain ⟨k, u⟩ := c
    simp only [List.cons_append, Mem.get_cons, ih]
    split <;> simp

theorem Mem.get_run (k : Nat) (vs : List (BitVec w)) (j : Nat) :
    (Mem.run k vs).get j = if k ≤ j then vs[j - k]? else none := by
  induction vs generalizing k with
  | nil => simp [Mem.run]
  | cons v vs ih =>
    simp only [Mem.run, Mem.get_cons, ih]
    by_cases h : k = j
    · simp [h]
    · by_cases h' : k ≤ j
      · have : j - k = (j - (k + 1)) + 1 := by omega
        simp [h, h', this, List.getElem?_cons_succ, show k + 1 ≤ j by omega]
      · simp [h, h', show ¬ k + 1 ≤ j by omega]

/-- What a cell reads as after `Mem.fill`: the new value below, the old one at or beyond. -/
theorem Mem.get_fill (m : Mem w) (vs : List (BitVec w)) (j : Nat) :
    (m.fill vs).get j = if j < vs.length then vs[j]? else m.get j := by
  simp only [Mem.fill, Mem.get_append, Mem.get_run, Mem.get_dropBelow, Nat.zero_le, if_true, Nat.sub_zero]
  by_cases h : j < vs.length <;> simp [h]

/-! ### Reading a run of cells -/

/-- A run of cells that are all written reads as their values. -/
theorem Mem.readRun_eq_some (m : Mem w) (k n : Nat) (h : ∀ j, k ≤ j → j < k + n → (m.get j).isSome) :
    m.readRun k n = some ((List.range' k n).map fun j => (m.get j).getD 0) := by
  induction n generalizing k with
  | zero => simp [Mem.readRun]
  | succ n ih =>
    obtain ⟨v, hv⟩ := Option.isSome_iff_exists.1 (h k (Nat.le_refl k) (by omega))
    have := ih (k + 1) (fun j hj hj' => h j (by omega) (by omega))
    simp [Mem.readRun, hv, this, List.range'_succ]

/-- A run of cells with an unwritten one among them does not read. -/
theorem Mem.readRun_eq_none (m : Mem w) (k n j : Nat) (hk : k ≤ j) (hj : j < k + n) (h : m.get j = none) :
    m.readRun k n = none := by
  induction n generalizing k with
  | zero => omega
  | succ n ih =>
    unfold Mem.readRun
    split
    · rfl
    · rename_i v hv
      have : k ≠ j := by rintro rfl; simp [h] at hv
      simp [ih (k + 1) (by omega) (by omega)]

/-- A run reads exactly when all its cells are written. -/
theorem Mem.readRun_isSome_iff (m : Mem w) (n : Nat) :
    (m.readRun 0 n).isSome ↔ ∀ j < n, (m.get j).isSome := by
  constructor
  · intro h j hj
    cases hg : m.get j with
    | some v => rfl
    | none => simp [Mem.readRun_eq_none m 0 n j (by omega) (by omega) hg] at h
  · intro h
    rw [Mem.readRun_eq_some m 0 n (fun j _ hj => h j (by omega))]; rfl

/-! ### The canonical form -/

/-- The canonical form with a lower bound for the first index. -/
def Mem.wfFrom (lo size : Nat) : Mem w → Bool
  | [] => true
  | (k, _) :: m => decide (lo ≤ k) && decide (k < size) && Mem.wfFrom (k + 1) size m

theorem Mem.wfFrom_le {lo lo' size : Nat} (m : Mem w) (h : lo' ≤ lo) (hm : Mem.wfFrom lo size m = true) :
    Mem.wfFrom lo' size m = true := by
  cases m with
  | nil => rfl
  | cons c m =>
    simp only [Mem.wfFrom, Bool.and_eq_true, decide_eq_true_eq] at *
    exact ⟨⟨by omega, hm.1.2⟩, hm.2⟩

theorem Mem.wf_eq_wfFrom (size : Nat) (m : Mem w) : Mem.wf size m = Mem.wfFrom 0 size m := by
  induction m with
  | nil => rfl
  | cons c m ih =>
    obtain ⟨k, v⟩ := c
    cases m with
    | nil => simp [Mem.wf, Mem.wfFrom]
    | cons d m =>
      obtain ⟨l, u⟩ := d
      rw [Mem.wf, ih]
      rw [Bool.eq_iff_iff]
      simp only [Mem.wfFrom, Bool.and_eq_true, decide_eq_true_eq]
      constructor
      · rintro ⟨h1, ⟨_, h2⟩, h3⟩; exact ⟨⟨by omega, by omega⟩, ⟨by omega, h2⟩, h3⟩
      · rintro ⟨_, ⟨h1, h2⟩, h3⟩; exact ⟨by omega, ⟨by omega, h2⟩, h3⟩

theorem Mem.wfFrom_put {lo size i : Nat} (m : Mem w) (v : BitVec w) (hlo : lo ≤ i) (hi : i < size)
    (hm : Mem.wfFrom lo size m = true) : Mem.wfFrom lo size (m.put i v) = true := by
  induction m generalizing lo with
  | nil => simp [Mem.put, Mem.wfFrom, hlo, hi]
  | cons c m ih =>
    obtain ⟨k, u⟩ := c
    simp only [Mem.wfFrom, Bool.and_eq_true, decide_eq_true_eq] at hm
    unfold Mem.put
    split
    · simp only [Mem.wfFrom, Bool.and_eq_true, decide_eq_true_eq]
      exact ⟨⟨hlo, hi⟩, ⟨by omega, hm.1.2⟩, hm.2⟩
    · split
      · subst_vars
        simp only [Mem.wfFrom, Bool.and_eq_true, decide_eq_true_eq]
        exact hm
      · simp only [Mem.wfFrom, Bool.and_eq_true, decide_eq_true_eq]
        exact ⟨hm.1, ih (by omega) hm.2⟩

theorem Mem.wf_put {size i : Nat} (m : Mem w) (v : BitVec w) (hi : i < size) (hm : Mem.wf size m = true) :
    Mem.wf size (m.put i v) = true := by
  rw [Mem.wf_eq_wfFrom] at *; exact Mem.wfFrom_put m v (Nat.zero_le i) hi hm

theorem Mem.wfFrom_filter {lo size : Nat} (m : Mem w) (p : Nat × BitVec w → Bool)
    (hm : Mem.wfFrom lo size m = true) : Mem.wfFrom lo size (m.filter p) = true := by
  induction m generalizing lo with
  | nil => rfl
  | cons c m ih =>
    simp only [Mem.wfFrom, Bool.and_eq_true, decide_eq_true_eq] at hm
    simp only [List.filter_cons]
    split
    · simp only [Mem.wfFrom, Bool.and_eq_true, decide_eq_true_eq]; exact ⟨hm.1, ih hm.2⟩
    · exact ih (Mem.wfFrom_le m (by omega) hm.2)

theorem Mem.wf_erase {size : Nat} (m : Mem w) (i : Nat) (hm : Mem.wf size m = true) :
    Mem.wf size (m.erase i) = true := by
  rw [Mem.wf_eq_wfFrom] at *; exact Mem.wfFrom_filter m _ hm

theorem Mem.wf_dropBelow {size : Nat} (m : Mem w) (n : Nat) (hm : Mem.wf size m = true) :
    Mem.wf size (m.dropBelow n) = true := by
  rw [Mem.wf_eq_wfFrom] at *; exact Mem.wfFrom_filter m _ hm

theorem Mem.wfFrom_dropBelow {lo size : Nat} (m : Mem w) (n : Nat) (hm : Mem.wfFrom lo size m = true) :
    Mem.wfFrom n size (m.dropBelow n) = true := by
  induction m generalizing lo with
  | nil => rfl
  | cons c m ih =>
    simp only [Mem.wfFrom, Bool.and_eq_true, decide_eq_true_eq] at hm
    simp only [Mem.dropBelow, List.filter_cons]
    split
    · rename_i h
      simp only [Mem.wfFrom, Bool.and_eq_true, decide_eq_true_eq] at *
      exact ⟨⟨h, hm.1.2⟩, Mem.wfFrom_filter m _ hm.2⟩
    · exact ih hm.2

theorem Mem.wfFrom_run_append {size : Nat} (k : Nat) (vs : List (BitVec w)) (m : Mem w)
    (hs : k + vs.length ≤ size) (hm : Mem.wfFrom (k + vs.length) size m = true) :
    Mem.wfFrom k size (Mem.run k vs ++ m) = true := by
  induction vs generalizing k with
  | nil => simpa [Mem.run] using hm
  | cons v vs ih =>
    simp only [List.length_cons] at hs hm
    simp only [Mem.run, List.cons_append, Mem.wfFrom, Bool.and_eq_true, decide_eq_true_eq]
    exact ⟨by omega, ih (k + 1) (by omega) (by rw [show k + 1 + vs.length = k + (vs.length + 1) by omega]; exact hm)⟩

theorem Mem.wf_fill {size : Nat} (m : Mem w) (vs : List (BitVec w)) (hs : vs.length ≤ size)
    (hm : Mem.wf size m = true) : Mem.wf size (m.fill vs) = true := by
  rw [Mem.wf_eq_wfFrom] at *
  exact Mem.wfFrom_run_append 0 vs _ (by omega) (by rw [Nat.zero_add]; exact Mem.wfFrom_dropBelow m _ hm)

/-! ### `GLUT` -/

/-- What an entry of `GLUT` reads as after a write (R78). -/
theorem glutGet_glutPut (m : Mem 8) (v : Nat) (d : Byte) (u : Nat) :
    glutGet (glutPut m v d) u = if u = v then d else glutGet m u := by
  unfold glutPut glutGet
  split
  · rw [Mem.get_erase]; split <;> simp_all
  · rw [Mem.get_put]; split <;> simp

theorem Mem.mem_put {m : Mem w} {i : Nat} {v : BitVec w} {c : Nat × BitVec w} (h : c ∈ m.put i v) :
    c = (i, v) ∨ c ∈ m := by
  induction m with
  | nil => simpa [Mem.put] using h
  | cons d m ih =>
    obtain ⟨k, u⟩ := d
    unfold Mem.put at h
    split at h
    · simpa using h
    · split at h
      · rcases List.mem_cons.1 h with h | h <;> simp [h]
      · rcases List.mem_cons.1 h with h | h
        · simp [h]
        · rcases ih h with h | h <;> simp [h]

theorem glutWf_glutPut (m : Mem 8) (v : Nat) (d : Byte) (hv : v < 256) (hm : glutWf m = true) :
    glutWf (glutPut m v d) = true := by
  simp only [glutWf, Bool.and_eq_true, List.all_eq_true] at *
  unfold glutPut
  split
  · exact ⟨Mem.wf_erase m v hm.1, fun c hc => hm.2 c (List.mem_filter.1 hc).1⟩
  · rename_i hne
    refine ⟨Mem.wf_put m d hv hm.1, fun c hc => ?_⟩
    rcases Mem.mem_put hc with rfl | hc
    · simpa using hne
    · exact hm.2 c hc

end Sys2Proof.Machine
end

