-- ==== Sys2Proof/Laws/Operands.lean ====
section
/-! SUPPORT. The rounding primitives, the pixel formats, the snapshot and the new canvas: each operation's one lemma. -/

namespace Sys2Proof.Machine

/-! ### Rounding and range primitives -/

theorem clamp8_eq (v : Int) : clamp8 v = max 0 (min 255 v) := by
  unfold clamp8 clamp; split <;> (try split) <;> omega

theorem clamp8_range (v : Int) : 0 ≤ clamp8 v ∧ clamp8 v ≤ 255 := by
  rw [clamp8_eq]; omega

theorem clamp_range {v lo hi : Int} (h : lo ≤ hi) : lo ≤ clamp v lo hi ∧ clamp v lo hi ≤ hi := by
  unfold clamp; split <;> (try split) <;> omega

theorem clamp_id {v lo hi : Int} (h : lo ≤ v) (h' : v ≤ hi) : clamp v lo hi = v := by
  unfold clamp; split <;> (try split) <;> omega

theorem rhu_eq (a b : Int) : rhu a b = (2 * a + b) / (2 * b) := rfl

theorem absInt_eq (v : Int) : absInt v = v.natAbs := by unfold absInt; split <;> omega

/-! ### The fixed-point formats at the decided parameters (R6, R107, R108) -/

@[simp] theorem factorOne_params : params.factorOne = 256 := rfl

@[simp] theorem workOne_params : params.workOne = 256 := rfl

@[simp] theorem codeStep_params (c : Channel) :
    codeStep c = match c with | .red => 2048 | .green => 1024 | .blue => 2048 := by cases c <;> rfl

/-! ### Pixels -/

theorem chan_range (p : Pixel) (c : Channel) : 0 ≤ chan p c ∧ chan p c ≤ 255 := by
  have h := fun lo : Nat => (p.extractLsb' lo 8).isLt
  have h0 := h 0
  have h8 := h 8
  have h16 := h 16
  cases c <;> simp only [chan] <;> omega

theorem channelByte_toNat {v : Int} (h : 0 ≤ v) (h' : v ≤ 255) : ((channelByte v).toNat : Int) = v := by
  obtain ⟨n, rfl⟩ := Int.eq_ofNat_of_zero_le h
  simp only [channelByte, BitVec.ofInt_natCast, BitVec.toNat_ofNat]
  omega

theorem toNat_append_add {n m : Nat} (x : BitVec n) (y : BitVec m) :
    (x ++ y).toNat = x.toNat * 2 ^ m + y.toNat := by
  rw [BitVec.toNat_append, ← Nat.shiftLeft_add_eq_or_of_lt y.isLt, Nat.shiftLeft_eq]

theorem toNat_bytes (r g b : Byte) :
    (r ++ g ++ b : BitVec 24).toNat = r.toNat * 65536 + g.toNat * 256 + b.toNat := by
  refine (toNat_append_add (r ++ g) b).trans ?_
  rw [toNat_append_add r g]; ring

theorem extract_toNat {n : Nat} (x : BitVec n) (lo len : Nat) :
    (x.extractLsb' lo len).toNat = x.toNat / 2 ^ lo % 2 ^ len := by
  rw [BitVec.extractLsb'_toNat, Nat.shiftRight_eq_div_pow]

theorem chan_bytes (r g b : Byte) (c : Channel) :
    chan (r ++ g ++ b : BitVec 24) c = match c with | .red => r.toNat | .green => g.toNat | .blue => b.toNat := by
  have hr := r.isLt
  have hg := g.isLt
  have hb := b.isLt
  cases c <;> simp only [chan, extract_toNat, toNat_bytes] <;> omega

/-- Channels in 0..255 read back from the stored pixel. -/
theorem chan_rgb888 (f : Channel → Int) (h : ∀ c, 0 ≤ f c ∧ f c ≤ 255) (c : Channel) : chan (rgb888 f) c = f c := by
  rw [rgb888, chan_bytes]
  cases c <;> exact channelByte_toNat (h _).1 (h _).2

/-! ### The snapshot -/

/-- The canvas as a raster, for a canvas all of whose cells are written. -/
def State.canvasRaster (s : State) : Raster where
  width := s.width
  height := s.height
  cells := ((List.range s.canvasCells).map fun k => (s.cnv.get k).getD 0).toArray

/-- The source image as a raster, for a source all of whose cells are written. -/
def State.sourceRaster (s : State) : Raster where
  width := s.srcWidth
  height := s.srcHeight
  cells := ((List.range s.srcCells).map fun k => (s.src.get k).getD 0).toArray

theorem snapshot_eq_some (s : State) (h : s.canvasWritten) : s.snapshot = some s.canvasRaster := by
  unfold State.snapshot
  rw [Mem.readRun_eq_some _ _ _ (fun j _ hj => h j (by omega))]
  simp [State.canvasRaster, List.range_eq_range']

theorem snapshot_eq_none (s : State) (h : ¬ s.canvasWritten) : s.snapshot = none := by
  unfold State.snapshot
  cases hr : s.cnv.readRun 0 s.canvasCells with
  | none => rfl
  | some l => exact absurd ((Mem.readRun_isSome_iff _ _).1 (by simp [hr])) h

theorem sourceImage_eq_some (s : State) (h : s.sourceWritten) : s.sourceImage = some s.sourceRaster := by
  unfold State.sourceImage
  rw [Mem.readRun_eq_some _ _ _ (fun j _ hj => h j (by omega))]
  simp [State.sourceRaster, List.range_eq_range']

theorem sourceImage_eq_none (s : State) (h : ¬ s.sourceWritten) : s.sourceImage = none := by
  unfold State.sourceImage
  cases hr : s.src.readRun 0 s.srcCells with
  | none => rfl
  | some l => exact absurd ((Mem.readRun_isSome_iff _ _).1 (by simp [hr])) h

/-- Every snapshot is the canvas as a raster, with every cell written. -/
theorem snapshot_cases {s : State} {P : Raster} (h : s.snapshot = some P) : s.canvasWritten ∧ P = s.canvasRaster := by
  by_cases hw : s.canvasWritten
  · rw [snapshot_eq_some s hw] at h; exact ⟨hw, (Option.some.inj h).symm⟩
  · rw [snapshot_eq_none s hw] at h; cases h

/-- Every source image is the source as a raster, with every cell written. -/
theorem sourceImage_cases {s : State} {P : Raster} (h : s.sourceImage = some P) :
    s.sourceWritten ∧ P = s.sourceRaster := by
  by_cases hw : s.sourceWritten
  · rw [sourceImage_eq_some s hw] at h; exact ⟨hw, (Option.some.inj h).symm⟩
  · rw [sourceImage_eq_none s hw] at h; cases h

/-- A position inside a `w` by `h` raster has its index inside the cells. -/
theorem index_lt {x y w h : Nat} (hx : x < w) (hy : y < h) : y * w + x < w * h := by
  have : y * w + w ≤ h * w := by rw [← Nat.succ_mul]; exact Nat.mul_le_mul_right w hy
  rw [Nat.mul_comm w h]; omega

theorem index_mod {x y w : Nat} (hx : x < w) : (y * w + x) % w = x := by
  rw [Nat.add_comm, Nat.add_mul_mod_self_right, Nat.mod_eq_of_lt hx]

theorem index_div {x y w : Nat} (hx : x < w) : (y * w + x) / w = y := by
  rw [Nat.add_comm, Nat.add_mul_div_right _ _ (by omega), Nat.div_eq_of_lt hx, Nat.zero_add]

theorem canvasRaster_pixel (s : State) {x y : Nat} (hx : x < s.width) (hy : y < s.height) :
    s.canvasRaster.pixel x y = s.canvasPixel x y := by
  have := index_lt hx hy
  simp [Raster.pixel, State.canvasRaster, State.canvasPixel, State.canvasCells, this]

theorem sourceRaster_pixel (s : State) {x y : Nat} (hx : x < s.srcWidth) (hy : y < s.srcHeight) :
    s.sourceRaster.pixel x y = (s.src.get (y * s.srcWidth + x)).getD 0 := by
  have := index_lt hx hy
  simp [Raster.pixel, State.sourceRaster, State.srcCells, this]

/-! ### The new canvas -/

@[simp] theorem render_length (w h : Nat) (f : Nat → Nat → Pixel) : (render w h f).length = w * h := by
  simp [render]

theorem render_getElem? (w h : Nat) (f : Nat → Nat → Pixel) {x y : Nat} (hx : x < w) (hy : y < h) :
    (render w h f)[y * w + x]? = some (f x y) := by
  have := index_lt hx hy
  simp [render, this, index_mod hx, index_div hx]

/-- The canvas after a stage has written a rendered raster: `f` inside, unchanged at or beyond `W*H`. -/
theorem get_fill_render (m : Mem 24) (w h : Nat) (f : Nat → Nat → Pixel) :
    (∀ x < w, ∀ y < h, (m.fill (render w h f)).get (y * w + x) = some (f x y)) ∧
    ∀ k, w * h ≤ k → (m.fill (render w h f)).get k = m.get k := by
  constructor
  · intro x hx y hy
    rw [Mem.get_fill, if_pos (by simpa using index_lt hx hy), render_getElem? w h f hx hy]
  · intro k hk
    rw [Mem.get_fill, if_neg (by simp; omega)]

/-- A stage over the canvas: the pre-check, then the reads, then the write. -/
theorem onCanvas_cases (s : State) (write : Raster → State) :
    (s.canvasLegal = false ∧ onCanvas s write = .error .badDim) ∨
    (s.canvasLegal = true ∧ ¬ s.canvasWritten ∧ onCanvas s write = .unwritten .cnv) ∨
    (s.canvasLegal = true ∧ s.canvasWritten ∧ onCanvas s write = .finished (write s.canvasRaster)) := by
  unfold onCanvas
  by_cases hl : s.canvasLegal
  · by_cases hw : s.canvasWritten
    · exact .inr (.inr ⟨hl, hw, by simp [hl, snapshot_eq_some s hw]⟩)
    · simp [hl, snapshot_eq_none s hw, hw]
  · simp [hl]

end Sys2Proof.Machine
end

