-- ==== Sys2Proof/Laws/State.lean ====
section
/-! SUPPORT. One lemma per field per named update of the state, true by `rfl`, so that no later proof unfolds a record
update. -/

namespace Sys2Proof.Machine

/-! ### `accept` -/

@[simp] theorem accept_srcW (s : State) (w : Word) (stages : BitVec 9) : (accept s w stages).srcW = s.srcW := rfl
@[simp] theorem accept_srcH (s : State) (w : Word) (stages : BitVec 9) : (accept s w stages).srcH = s.srcH := rfl
@[simp] theorem accept_canvasW (s : State) (w : Word) (stages : BitVec 9) : (accept s w stages).canvasW = s.canvasW := rfl
@[simp] theorem accept_canvasH (s : State) (w : Word) (stages : BitVec 9) : (accept s w stages).canvasH = s.canvasH := rfl
@[simp] theorem accept_contrast (s : State) (w : Word) (stages : BitVec 9) : (accept s w stages).contrast = s.contrast := rfl
@[simp] theorem accept_bright (s : State) (w : Word) (stages : BitVec 9) : (accept s w stages).bright = s.bright := rfl
@[simp] theorem accept_color (s : State) (w : Word) (stages : BitVec 9) : (accept s w stages).color = s.color := rfl
@[simp] theorem accept_sharp (s : State) (w : Word) (stages : BitVec 9) : (accept s w stages).sharp = s.sharp := rfl
@[simp] theorem accept_usmAmt (s : State) (w : Word) (stages : BitVec 9) : (accept s w stages).usmAmt = s.usmAmt := rfl
@[simp] theorem accept_usmThr (s : State) (w : Word) (stages : BitVec 9) : (accept s w stages).usmThr = s.usmThr := rfl
@[simp] theorem accept_busy (s : State) (w : Word) (stages : BitVec 9) : (accept s w stages).busy = true := rfl
@[simp] theorem accept_done (s : State) (w : Word) (stages : BitVec 9) : (accept s w stages).done = false := rfl
@[simp] theorem accept_err (s : State) (w : Word) (stages : BitVec 9) : (accept s w stages).err = s.err := rfl
@[simp] theorem accept_ovr (s : State) (w : Word) (stages : BitVec 9) : (accept s w stages).ovr = s.ovr := rfl
@[simp] theorem accept_stage (s : State) (w : Word) (stages : BitVec 9) : (accept s w stages).stage = s.stage := rfl
@[simp] theorem accept_errCode (s : State) (w : Word) (stages : BitVec 9) : (accept s w stages).errCode = s.errCode := rfl
@[simp] theorem accept_errStage (s : State) (w : Word) (stages : BitVec 9) : (accept s w stages).errStage = s.errStage := rfl
@[simp] theorem accept_doneIe (s : State) (w : Word) (stages : BitVec 9) : (accept s w stages).doneIe = s.doneIe := rfl
@[simp] theorem accept_errIe (s : State) (w : Word) (stages : BitVec 9) : (accept s w stages).errIe = s.errIe := rfl
@[simp] theorem accept_newW (s : State) (w : Word) (stages : BitVec 9) : (accept s w stages).newW = s.newW := rfl
@[simp] theorem accept_newH (s : State) (w : Word) (stages : BitVec 9) : (accept s w stages).newH = s.newH := rfl
@[simp] theorem accept_offX (s : State) (w : Word) (stages : BitVec 9) : (accept s w stages).offX = s.offX := rfl
@[simp] theorem accept_offY (s : State) (w : Word) (stages : BitVec 9) : (accept s w stages).offY = s.offY := rfl
@[simp] theorem accept_mean (s : State) (w : Word) (stages : BitVec 9) : (accept s w stages).mean = s.mean := rfl
@[simp] theorem accept_srcPtr (s : State) (w : Word) (stages : BitVec 9) : (accept s w stages).srcPtr = s.srcPtr := rfl
@[simp] theorem accept_cnvPtr (s : State) (w : Word) (stages : BitVec 9) : (accept s w stages).cnvPtr = s.cnvPtr := rfl
@[simp] theorem accept_outPtr (s : State) (w : Word) (stages : BitVec 9) : (accept s w stages).outPtr = s.outPtr := rfl
@[simp] theorem accept_cur (s : State) (w : Word) (stages : BitVec 9) : (accept s w stages).cur = w := rfl
@[simp] theorem accept_pend (s : State) (w : Word) (stages : BitVec 9) : (accept s w stages).pend = stages := rfl
@[simp] theorem accept_src (s : State) (w : Word) (stages : BitVec 9) : (accept s w stages).src = s.src := rfl
@[simp] theorem accept_cnv (s : State) (w : Word) (stages : BitVec 9) : (accept s w stages).cnv = s.cnv := rfl
@[simp] theorem accept_out (s : State) (w : Word) (stages : BitVec 9) : (accept s w stages).out = s.out := rfl
@[simp] theorem accept_glut (s : State) (w : Word) (stages : BitVec 9) : (accept s w stages).glut = s.glut := rfl
@[simp] theorem accept_input (s : State) (w : Word) (stages : BitVec 9) : (accept s w stages).input = s.input := rfl
@[simp] theorem accept_resp (s : State) (w : Word) (stages : BitVec 9) : (accept s w stages).resp = s.resp := rfl
@[simp] theorem accept_freeCount (s : State) (w : Word) (stages : BitVec 9) : (accept s w stages).freeCount = s.freeCount := rfl

/-! ### `complete` -/

@[simp] theorem complete_srcW (s : State) : (complete s).srcW = s.srcW := rfl
@[simp] theorem complete_srcH (s : State) : (complete s).srcH = s.srcH := rfl
@[simp] theorem complete_canvasW (s : State) : (complete s).canvasW = s.canvasW := rfl
@[simp] theorem complete_canvasH (s : State) : (complete s).canvasH = s.canvasH := rfl
@[simp] theorem complete_contrast (s : State) : (complete s).contrast = s.contrast := rfl
@[simp] theorem complete_bright (s : State) : (complete s).bright = s.bright := rfl
@[simp] theorem complete_color (s : State) : (complete s).color = s.color := rfl
@[simp] theorem complete_sharp (s : State) : (complete s).sharp = s.sharp := rfl
@[simp] theorem complete_usmAmt (s : State) : (complete s).usmAmt = s.usmAmt := rfl
@[simp] theorem complete_usmThr (s : State) : (complete s).usmThr = s.usmThr := rfl
@[simp] theorem complete_busy (s : State) : (complete s).busy = false := rfl
@[simp] theorem complete_done (s : State) : (complete s).done = true := rfl
@[simp] theorem complete_err (s : State) : (complete s).err = s.err := rfl
@[simp] theorem complete_ovr (s : State) : (complete s).ovr = s.ovr := rfl
@[simp] theorem complete_stage (s : State) : (complete s).stage = s.stage := rfl
@[simp] theorem complete_errCode (s : State) : (complete s).errCode = s.errCode := rfl
@[simp] theorem complete_errStage (s : State) : (complete s).errStage = s.errStage := rfl
@[simp] theorem complete_doneIe (s : State) : (complete s).doneIe = s.doneIe := rfl
@[simp] theorem complete_errIe (s : State) : (complete s).errIe = s.errIe := rfl
@[simp] theorem complete_newW (s : State) : (complete s).newW = s.newW := rfl
@[simp] theorem complete_newH (s : State) : (complete s).newH = s.newH := rfl
@[simp] theorem complete_offX (s : State) : (complete s).offX = s.offX := rfl
@[simp] theorem complete_offY (s : State) : (complete s).offY = s.offY := rfl
@[simp] theorem complete_mean (s : State) : (complete s).mean = s.mean := rfl
@[simp] theorem complete_srcPtr (s : State) : (complete s).srcPtr = s.srcPtr := rfl
@[simp] theorem complete_cnvPtr (s : State) : (complete s).cnvPtr = s.cnvPtr := rfl
@[simp] theorem complete_outPtr (s : State) : (complete s).outPtr = s.outPtr := rfl
@[simp] theorem complete_cur (s : State) : (complete s).cur = s.cur := rfl
@[simp] theorem complete_pend (s : State) : (complete s).pend = s.pend := rfl
@[simp] theorem complete_src (s : State) : (complete s).src = s.src := rfl
@[simp] theorem complete_cnv (s : State) : (complete s).cnv = s.cnv := rfl
@[simp] theorem complete_out (s : State) : (complete s).out = s.out := rfl
@[simp] theorem complete_glut (s : State) : (complete s).glut = s.glut := rfl
@[simp] theorem complete_input (s : State) : (complete s).input = s.input := rfl
@[simp] theorem complete_resp (s : State) : (complete s).resp = s.resp := rfl
@[simp] theorem complete_freeCount (s : State) : (complete s).freeCount = s.freeCount := rfl

/-! ### `setOvr` -/

@[simp] theorem setOvr_srcW (s : State) : (setOvr s).srcW = s.srcW := rfl
@[simp] theorem setOvr_srcH (s : State) : (setOvr s).srcH = s.srcH := rfl
@[simp] theorem setOvr_canvasW (s : State) : (setOvr s).canvasW = s.canvasW := rfl
@[simp] theorem setOvr_canvasH (s : State) : (setOvr s).canvasH = s.canvasH := rfl
@[simp] theorem setOvr_contrast (s : State) : (setOvr s).contrast = s.contrast := rfl
@[simp] theorem setOvr_bright (s : State) : (setOvr s).bright = s.bright := rfl
@[simp] theorem setOvr_color (s : State) : (setOvr s).color = s.color := rfl
@[simp] theorem setOvr_sharp (s : State) : (setOvr s).sharp = s.sharp := rfl
@[simp] theorem setOvr_usmAmt (s : State) : (setOvr s).usmAmt = s.usmAmt := rfl
@[simp] theorem setOvr_usmThr (s : State) : (setOvr s).usmThr = s.usmThr := rfl
@[simp] theorem setOvr_busy (s : State) : (setOvr s).busy = s.busy := rfl
@[simp] theorem setOvr_done (s : State) : (setOvr s).done = s.done := rfl
@[simp] theorem setOvr_err (s : State) : (setOvr s).err = s.err := rfl
@[simp] theorem setOvr_ovr (s : State) : (setOvr s).ovr = true := rfl
@[simp] theorem setOvr_stage (s : State) : (setOvr s).stage = s.stage := rfl
@[simp] theorem setOvr_errCode (s : State) : (setOvr s).errCode = s.errCode := rfl
@[simp] theorem setOvr_errStage (s : State) : (setOvr s).errStage = s.errStage := rfl
@[simp] theorem setOvr_doneIe (s : State) : (setOvr s).doneIe = s.doneIe := rfl
@[simp] theorem setOvr_errIe (s : State) : (setOvr s).errIe = s.errIe := rfl
@[simp] theorem setOvr_newW (s : State) : (setOvr s).newW = s.newW := rfl
@[simp] theorem setOvr_newH (s : State) : (setOvr s).newH = s.newH := rfl
@[simp] theorem setOvr_offX (s : State) : (setOvr s).offX = s.offX := rfl
@[simp] theorem setOvr_offY (s : State) : (setOvr s).offY = s.offY := rfl
@[simp] theorem setOvr_mean (s : State) : (setOvr s).mean = s.mean := rfl
@[simp] theorem setOvr_srcPtr (s : State) : (setOvr s).srcPtr = s.srcPtr := rfl
@[simp] theorem setOvr_cnvPtr (s : State) : (setOvr s).cnvPtr = s.cnvPtr := rfl
@[simp] theorem setOvr_outPtr (s : State) : (setOvr s).outPtr = s.outPtr := rfl
@[simp] theorem setOvr_cur (s : State) : (setOvr s).cur = s.cur := rfl
@[simp] theorem setOvr_pend (s : State) : (setOvr s).pend = s.pend := rfl
@[simp] theorem setOvr_src (s : State) : (setOvr s).src = s.src := rfl
@[simp] theorem setOvr_cnv (s : State) : (setOvr s).cnv = s.cnv := rfl
@[simp] theorem setOvr_out (s : State) : (setOvr s).out = s.out := rfl
@[simp] theorem setOvr_glut (s : State) : (setOvr s).glut = s.glut := rfl
@[simp] theorem setOvr_input (s : State) : (setOvr s).input = s.input := rfl
@[simp] theorem setOvr_resp (s : State) : (setOvr s).resp = s.resp := rfl
@[simp] theorem setOvr_freeCount (s : State) : (setOvr s).freeCount = s.freeCount := rfl

/-! ### `recordError` -/

@[simp] theorem recordError_srcW (s : State) (code : ErrorCode) (es : BitVec 4) : (recordError s code es).srcW = s.srcW := rfl
@[simp] theorem recordError_srcH (s : State) (code : ErrorCode) (es : BitVec 4) : (recordError s code es).srcH = s.srcH := rfl
@[simp] theorem recordError_canvasW (s : State) (code : ErrorCode) (es : BitVec 4) : (recordError s code es).canvasW = s.canvasW := rfl
@[simp] theorem recordError_canvasH (s : State) (code : ErrorCode) (es : BitVec 4) : (recordError s code es).canvasH = s.canvasH := rfl
@[simp] theorem recordError_contrast (s : State) (code : ErrorCode) (es : BitVec 4) : (recordError s code es).contrast = s.contrast := rfl
@[simp] theorem recordError_bright (s : State) (code : ErrorCode) (es : BitVec 4) : (recordError s code es).bright = s.bright := rfl
@[simp] theorem recordError_color (s : State) (code : ErrorCode) (es : BitVec 4) : (recordError s code es).color = s.color := rfl
@[simp] theorem recordError_sharp (s : State) (code : ErrorCode) (es : BitVec 4) : (recordError s code es).sharp = s.sharp := rfl
@[simp] theorem recordError_usmAmt (s : State) (code : ErrorCode) (es : BitVec 4) : (recordError s code es).usmAmt = s.usmAmt := rfl
@[simp] theorem recordError_usmThr (s : State) (code : ErrorCode) (es : BitVec 4) : (recordError s code es).usmThr = s.usmThr := rfl
@[simp] theorem recordError_busy (s : State) (code : ErrorCode) (es : BitVec 4) : (recordError s code es).busy = s.busy := rfl
@[simp] theorem recordError_done (s : State) (code : ErrorCode) (es : BitVec 4) : (recordError s code es).done = s.done := rfl
@[simp] theorem recordError_err (s : State) (code : ErrorCode) (es : BitVec 4) : (recordError s code es).err = true := rfl
@[simp] theorem recordError_ovr (s : State) (code : ErrorCode) (es : BitVec 4) : (recordError s code es).ovr = s.ovr := rfl
@[simp] theorem recordError_stage (s : State) (code : ErrorCode) (es : BitVec 4) : (recordError s code es).stage = s.stage := rfl
@[simp] theorem recordError_errCode (s : State) (code : ErrorCode) (es : BitVec 4) : (recordError s code es).errCode = code.code := rfl
@[simp] theorem recordError_errStage (s : State) (code : ErrorCode) (es : BitVec 4) : (recordError s code es).errStage = es := rfl
@[simp] theorem recordError_doneIe (s : State) (code : ErrorCode) (es : BitVec 4) : (recordError s code es).doneIe = s.doneIe := rfl
@[simp] theorem recordError_errIe (s : State) (code : ErrorCode) (es : BitVec 4) : (recordError s code es).errIe = s.errIe := rfl
@[simp] theorem recordError_newW (s : State) (code : ErrorCode) (es : BitVec 4) : (recordError s code es).newW = s.newW := rfl
@[simp] theorem recordError_newH (s : State) (code : ErrorCode) (es : BitVec 4) : (recordError s code es).newH = s.newH := rfl
@[simp] theorem recordError_offX (s : State) (code : ErrorCode) (es : BitVec 4) : (recordError s code es).offX = s.offX := rfl
@[simp] theorem recordError_offY (s : State) (code : ErrorCode) (es : BitVec 4) : (recordError s code es).offY = s.offY := rfl
@[simp] theorem recordError_mean (s : State) (code : ErrorCode) (es : BitVec 4) : (recordError s code es).mean = s.mean := rfl
@[simp] theorem recordError_srcPtr (s : State) (code : ErrorCode) (es : BitVec 4) : (recordError s code es).srcPtr = s.srcPtr := rfl
@[simp] theorem recordError_cnvPtr (s : State) (code : ErrorCode) (es : BitVec 4) : (recordError s code es).cnvPtr = s.cnvPtr := rfl
@[simp] theorem recordError_outPtr (s : State) (code : ErrorCode) (es : BitVec 4) : (recordError s code es).outPtr = s.outPtr := rfl
@[simp] theorem recordError_cur (s : State) (code : ErrorCode) (es : BitVec 4) : (recordError s code es).cur = s.cur := rfl
@[simp] theorem recordError_pend (s : State) (code : ErrorCode) (es : BitVec 4) : (recordError s code es).pend = s.pend := rfl
@[simp] theorem recordError_src (s : State) (code : ErrorCode) (es : BitVec 4) : (recordError s code es).src = s.src := rfl
@[simp] theorem recordError_cnv (s : State) (code : ErrorCode) (es : BitVec 4) : (recordError s code es).cnv = s.cnv := rfl
@[simp] theorem recordError_out (s : State) (code : ErrorCode) (es : BitVec 4) : (recordError s code es).out = s.out := rfl
@[simp] theorem recordError_glut (s : State) (code : ErrorCode) (es : BitVec 4) : (recordError s code es).glut = s.glut := rfl
@[simp] theorem recordError_input (s : State) (code : ErrorCode) (es : BitVec 4) : (recordError s code es).input = s.input := rfl
@[simp] theorem recordError_resp (s : State) (code : ErrorCode) (es : BitVec 4) : (recordError s code es).resp = s.resp := rfl
@[simp] theorem recordError_freeCount (s : State) (code : ErrorCode) (es : BitVec 4) : (recordError s code es).freeCount = s.freeCount := rfl

/-! ### `raiseStageError` -/

@[simp] theorem raiseStageError_srcW (s : State) (code : ErrorCode) (st : Stage) : (raiseStageError s code st).srcW = s.srcW := rfl
@[simp] theorem raiseStageError_srcH (s : State) (code : ErrorCode) (st : Stage) : (raiseStageError s code st).srcH = s.srcH := rfl
@[simp] theorem raiseStageError_canvasW (s : State) (code : ErrorCode) (st : Stage) : (raiseStageError s code st).canvasW = s.canvasW := rfl
@[simp] theorem raiseStageError_canvasH (s : State) (code : ErrorCode) (st : Stage) : (raiseStageError s code st).canvasH = s.canvasH := rfl
@[simp] theorem raiseStageError_contrast (s : State) (code : ErrorCode) (st : Stage) : (raiseStageError s code st).contrast = s.contrast := rfl
@[simp] theorem raiseStageError_bright (s : State) (code : ErrorCode) (st : Stage) : (raiseStageError s code st).bright = s.bright := rfl
@[simp] theorem raiseStageError_color (s : State) (code : ErrorCode) (st : Stage) : (raiseStageError s code st).color = s.color := rfl
@[simp] theorem raiseStageError_sharp (s : State) (code : ErrorCode) (st : Stage) : (raiseStageError s code st).sharp = s.sharp := rfl
@[simp] theorem raiseStageError_usmAmt (s : State) (code : ErrorCode) (st : Stage) : (raiseStageError s code st).usmAmt = s.usmAmt := rfl
@[simp] theorem raiseStageError_usmThr (s : State) (code : ErrorCode) (st : Stage) : (raiseStageError s code st).usmThr = s.usmThr := rfl
@[simp] theorem raiseStageError_busy (s : State) (code : ErrorCode) (st : Stage) : (raiseStageError s code st).busy = false := rfl
@[simp] theorem raiseStageError_done (s : State) (code : ErrorCode) (st : Stage) : (raiseStageError s code st).done = s.done := rfl
@[simp] theorem raiseStageError_err (s : State) (code : ErrorCode) (st : Stage) : (raiseStageError s code st).err = true := rfl
@[simp] theorem raiseStageError_ovr (s : State) (code : ErrorCode) (st : Stage) : (raiseStageError s code st).ovr = s.ovr := rfl
@[simp] theorem raiseStageError_stage (s : State) (code : ErrorCode) (st : Stage) : (raiseStageError s code st).stage = s.stage := rfl
@[simp] theorem raiseStageError_errCode (s : State) (code : ErrorCode) (st : Stage) : (raiseStageError s code st).errCode = code.code := rfl
@[simp] theorem raiseStageError_errStage (s : State) (code : ErrorCode) (st : Stage) : (raiseStageError s code st).errStage = st.id := rfl
@[simp] theorem raiseStageError_doneIe (s : State) (code : ErrorCode) (st : Stage) : (raiseStageError s code st).doneIe = s.doneIe := rfl
@[simp] theorem raiseStageError_errIe (s : State) (code : ErrorCode) (st : Stage) : (raiseStageError s code st).errIe = s.errIe := rfl
@[simp] theorem raiseStageError_newW (s : State) (code : ErrorCode) (st : Stage) : (raiseStageError s code st).newW = s.newW := rfl
@[simp] theorem raiseStageError_newH (s : State) (code : ErrorCode) (st : Stage) : (raiseStageError s code st).newH = s.newH := rfl
@[simp] theorem raiseStageError_offX (s : State) (code : ErrorCode) (st : Stage) : (raiseStageError s code st).offX = s.offX := rfl
@[simp] theorem raiseStageError_offY (s : State) (code : ErrorCode) (st : Stage) : (raiseStageError s code st).offY = s.offY := rfl
@[simp] theorem raiseStageError_mean (s : State) (code : ErrorCode) (st : Stage) : (raiseStageError s code st).mean = s.mean := rfl
@[simp] theorem raiseStageError_srcPtr (s : State) (code : ErrorCode) (st : Stage) : (raiseStageError s code st).srcPtr = s.srcPtr := rfl
@[simp] theorem raiseStageError_cnvPtr (s : State) (code : ErrorCode) (st : Stage) : (raiseStageError s code st).cnvPtr = s.cnvPtr := rfl
@[simp] theorem raiseStageError_outPtr (s : State) (code : ErrorCode) (st : Stage) : (raiseStageError s code st).outPtr = s.outPtr := rfl
@[simp] theorem raiseStageError_cur (s : State) (code : ErrorCode) (st : Stage) : (raiseStageError s code st).cur = s.cur := rfl
@[simp] theorem raiseStageError_pend (s : State) (code : ErrorCode) (st : Stage) : (raiseStageError s code st).pend = 0 := rfl
@[simp] theorem raiseStageError_src (s : State) (code : ErrorCode) (st : Stage) : (raiseStageError s code st).src = s.src := rfl
@[simp] theorem raiseStageError_cnv (s : State) (code : ErrorCode) (st : Stage) : (raiseStageError s code st).cnv = s.cnv := rfl
@[simp] theorem raiseStageError_out (s : State) (code : ErrorCode) (st : Stage) : (raiseStageError s code st).out = s.out := rfl
@[simp] theorem raiseStageError_glut (s : State) (code : ErrorCode) (st : Stage) : (raiseStageError s code st).glut = s.glut := rfl
@[simp] theorem raiseStageError_input (s : State) (code : ErrorCode) (st : Stage) : (raiseStageError s code st).input = s.input := rfl
@[simp] theorem raiseStageError_resp (s : State) (code : ErrorCode) (st : Stage) : (raiseStageError s code st).resp = s.resp := rfl
@[simp] theorem raiseStageError_freeCount (s : State) (code : ErrorCode) (st : Stage) : (raiseStageError s code st).freeCount = s.freeCount := rfl

/-! ### `raiseIllegalCmd` -/

@[simp] theorem raiseIllegalCmd_srcW (s : State) : (raiseIllegalCmd s).srcW = s.srcW := rfl
@[simp] theorem raiseIllegalCmd_srcH (s : State) : (raiseIllegalCmd s).srcH = s.srcH := rfl
@[simp] theorem raiseIllegalCmd_canvasW (s : State) : (raiseIllegalCmd s).canvasW = s.canvasW := rfl
@[simp] theorem raiseIllegalCmd_canvasH (s : State) : (raiseIllegalCmd s).canvasH = s.canvasH := rfl
@[simp] theorem raiseIllegalCmd_contrast (s : State) : (raiseIllegalCmd s).contrast = s.contrast := rfl
@[simp] theorem raiseIllegalCmd_bright (s : State) : (raiseIllegalCmd s).bright = s.bright := rfl
@[simp] theorem raiseIllegalCmd_color (s : State) : (raiseIllegalCmd s).color = s.color := rfl
@[simp] theorem raiseIllegalCmd_sharp (s : State) : (raiseIllegalCmd s).sharp = s.sharp := rfl
@[simp] theorem raiseIllegalCmd_usmAmt (s : State) : (raiseIllegalCmd s).usmAmt = s.usmAmt := rfl
@[simp] theorem raiseIllegalCmd_usmThr (s : State) : (raiseIllegalCmd s).usmThr = s.usmThr := rfl
@[simp] theorem raiseIllegalCmd_busy (s : State) : (raiseIllegalCmd s).busy = s.busy := rfl
@[simp] theorem raiseIllegalCmd_done (s : State) : (raiseIllegalCmd s).done = false := rfl
@[simp] theorem raiseIllegalCmd_err (s : State) : (raiseIllegalCmd s).err = true := rfl
@[simp] theorem raiseIllegalCmd_ovr (s : State) : (raiseIllegalCmd s).ovr = s.ovr := rfl
@[simp] theorem raiseIllegalCmd_stage (s : State) : (raiseIllegalCmd s).stage = s.stage := rfl
@[simp] theorem raiseIllegalCmd_errCode (s : State) : (raiseIllegalCmd s).errCode = ErrorCode.illegalCmd.code := rfl
@[simp] theorem raiseIllegalCmd_errStage (s : State) : (raiseIllegalCmd s).errStage = 0 := rfl
@[simp] theorem raiseIllegalCmd_doneIe (s : State) : (raiseIllegalCmd s).doneIe = s.doneIe := rfl
@[simp] theorem raiseIllegalCmd_errIe (s : State) : (raiseIllegalCmd s).errIe = s.errIe := rfl
@[simp] theorem raiseIllegalCmd_newW (s : State) : (raiseIllegalCmd s).newW = s.newW := rfl
@[simp] theorem raiseIllegalCmd_newH (s : State) : (raiseIllegalCmd s).newH = s.newH := rfl
@[simp] theorem raiseIllegalCmd_offX (s : State) : (raiseIllegalCmd s).offX = s.offX := rfl
@[simp] theorem raiseIllegalCmd_offY (s : State) : (raiseIllegalCmd s).offY = s.offY := rfl
@[simp] theorem raiseIllegalCmd_mean (s : State) : (raiseIllegalCmd s).mean = s.mean := rfl
@[simp] theorem raiseIllegalCmd_srcPtr (s : State) : (raiseIllegalCmd s).srcPtr = s.srcPtr := rfl
@[simp] theorem raiseIllegalCmd_cnvPtr (s : State) : (raiseIllegalCmd s).cnvPtr = s.cnvPtr := rfl
@[simp] theorem raiseIllegalCmd_outPtr (s : State) : (raiseIllegalCmd s).outPtr = s.outPtr := rfl
@[simp] theorem raiseIllegalCmd_cur (s : State) : (raiseIllegalCmd s).cur = s.cur := rfl
@[simp] theorem raiseIllegalCmd_pend (s : State) : (raiseIllegalCmd s).pend = s.pend := rfl
@[simp] theorem raiseIllegalCmd_src (s : State) : (raiseIllegalCmd s).src = s.src := rfl
@[simp] theorem raiseIllegalCmd_cnv (s : State) : (raiseIllegalCmd s).cnv = s.cnv := rfl
@[simp] theorem raiseIllegalCmd_out (s : State) : (raiseIllegalCmd s).out = s.out := rfl
@[simp] theorem raiseIllegalCmd_glut (s : State) : (raiseIllegalCmd s).glut = s.glut := rfl
@[simp] theorem raiseIllegalCmd_input (s : State) : (raiseIllegalCmd s).input = s.input := rfl
@[simp] theorem raiseIllegalCmd_resp (s : State) : (raiseIllegalCmd s).resp = s.resp := rfl
@[simp] theorem raiseIllegalCmd_freeCount (s : State) : (raiseIllegalCmd s).freeCount = s.freeCount := rfl

/-! ### `clearError` -/

@[simp] theorem clearError_srcW (s : State) : (clearError s).srcW = s.srcW := rfl
@[simp] theorem clearError_srcH (s : State) : (clearError s).srcH = s.srcH := rfl
@[simp] theorem clearError_canvasW (s : State) : (clearError s).canvasW = s.canvasW := rfl
@[simp] theorem clearError_canvasH (s : State) : (clearError s).canvasH = s.canvasH := rfl
@[simp] theorem clearError_contrast (s : State) : (clearError s).contrast = s.contrast := rfl
@[simp] theorem clearError_bright (s : State) : (clearError s).bright = s.bright := rfl
@[simp] theorem clearError_color (s : State) : (clearError s).color = s.color := rfl
@[simp] theorem clearError_sharp (s : State) : (clearError s).sharp = s.sharp := rfl
@[simp] theorem clearError_usmAmt (s : State) : (clearError s).usmAmt = s.usmAmt := rfl
@[simp] theorem clearError_usmThr (s : State) : (clearError s).usmThr = s.usmThr := rfl
@[simp] theorem clearError_busy (s : State) : (clearError s).busy = s.busy := rfl
@[simp] theorem clearError_done (s : State) : (clearError s).done = s.done := rfl
@[simp] theorem clearError_err (s : State) : (clearError s).err = false := rfl
@[simp] theorem clearError_ovr (s : State) : (clearError s).ovr = s.ovr := rfl
@[simp] theorem clearError_stage (s : State) : (clearError s).stage = s.stage := rfl
@[simp] theorem clearError_errCode (s : State) : (clearError s).errCode = 0 := rfl
@[simp] theorem clearError_errStage (s : State) : (clearError s).errStage = 0 := rfl
@[simp] theorem clearError_doneIe (s : State) : (clearError s).doneIe = s.doneIe := rfl
@[simp] theorem clearError_errIe (s : State) : (clearError s).errIe = s.errIe := rfl
@[simp] theorem clearError_newW (s : State) : (clearError s).newW = s.newW := rfl
@[simp] theorem clearError_newH (s : State) : (clearError s).newH = s.newH := rfl
@[simp] theorem clearError_offX (s : State) : (clearError s).offX = s.offX := rfl
@[simp] theorem clearError_offY (s : State) : (clearError s).offY = s.offY := rfl
@[simp] theorem clearError_mean (s : State) : (clearError s).mean = s.mean := rfl
@[simp] theorem clearError_srcPtr (s : State) : (clearError s).srcPtr = s.srcPtr := rfl
@[simp] theorem clearError_cnvPtr (s : State) : (clearError s).cnvPtr = s.cnvPtr := rfl
@[simp] theorem clearError_outPtr (s : State) : (clearError s).outPtr = s.outPtr := rfl
@[simp] theorem clearError_cur (s : State) : (clearError s).cur = s.cur := rfl
@[simp] theorem clearError_pend (s : State) : (clearError s).pend = s.pend := rfl
@[simp] theorem clearError_src (s : State) : (clearError s).src = s.src := rfl
@[simp] theorem clearError_cnv (s : State) : (clearError s).cnv = s.cnv := rfl
@[simp] theorem clearError_out (s : State) : (clearError s).out = s.out := rfl
@[simp] theorem clearError_glut (s : State) : (clearError s).glut = s.glut := rfl
@[simp] theorem clearError_input (s : State) : (clearError s).input = s.input := rfl
@[simp] theorem clearError_resp (s : State) : (clearError s).resp = s.resp := rfl
@[simp] theorem clearError_freeCount (s : State) : (clearError s).freeCount = s.freeCount := rfl

/-! ### `writeIntEn` -/

@[simp] theorem writeIntEn_srcW (s : State) (d : Word) : (writeIntEn s d).srcW = s.srcW := rfl
@[simp] theorem writeIntEn_srcH (s : State) (d : Word) : (writeIntEn s d).srcH = s.srcH := rfl
@[simp] theorem writeIntEn_canvasW (s : State) (d : Word) : (writeIntEn s d).canvasW = s.canvasW := rfl
@[simp] theorem writeIntEn_canvasH (s : State) (d : Word) : (writeIntEn s d).canvasH = s.canvasH := rfl
@[simp] theorem writeIntEn_contrast (s : State) (d : Word) : (writeIntEn s d).contrast = s.contrast := rfl
@[simp] theorem writeIntEn_bright (s : State) (d : Word) : (writeIntEn s d).bright = s.bright := rfl
@[simp] theorem writeIntEn_color (s : State) (d : Word) : (writeIntEn s d).color = s.color := rfl
@[simp] theorem writeIntEn_sharp (s : State) (d : Word) : (writeIntEn s d).sharp = s.sharp := rfl
@[simp] theorem writeIntEn_usmAmt (s : State) (d : Word) : (writeIntEn s d).usmAmt = s.usmAmt := rfl
@[simp] theorem writeIntEn_usmThr (s : State) (d : Word) : (writeIntEn s d).usmThr = s.usmThr := rfl
@[simp] theorem writeIntEn_busy (s : State) (d : Word) : (writeIntEn s d).busy = s.busy := rfl
@[simp] theorem writeIntEn_done (s : State) (d : Word) : (writeIntEn s d).done = s.done := rfl
@[simp] theorem writeIntEn_err (s : State) (d : Word) : (writeIntEn s d).err = s.err := rfl
@[simp] theorem writeIntEn_ovr (s : State) (d : Word) : (writeIntEn s d).ovr = s.ovr := rfl
@[simp] theorem writeIntEn_stage (s : State) (d : Word) : (writeIntEn s d).stage = s.stage := rfl
@[simp] theorem writeIntEn_errCode (s : State) (d : Word) : (writeIntEn s d).errCode = s.errCode := rfl
@[simp] theorem writeIntEn_errStage (s : State) (d : Word) : (writeIntEn s d).errStage = s.errStage := rfl
@[simp] theorem writeIntEn_doneIe (s : State) (d : Word) : (writeIntEn s d).doneIe = d.getLsbD 0 := rfl
@[simp] theorem writeIntEn_errIe (s : State) (d : Word) : (writeIntEn s d).errIe = d.getLsbD 1 := rfl
@[simp] theorem writeIntEn_newW (s : State) (d : Word) : (writeIntEn s d).newW = s.newW := rfl
@[simp] theorem writeIntEn_newH (s : State) (d : Word) : (writeIntEn s d).newH = s.newH := rfl
@[simp] theorem writeIntEn_offX (s : State) (d : Word) : (writeIntEn s d).offX = s.offX := rfl
@[simp] theorem writeIntEn_offY (s : State) (d : Word) : (writeIntEn s d).offY = s.offY := rfl
@[simp] theorem writeIntEn_mean (s : State) (d : Word) : (writeIntEn s d).mean = s.mean := rfl
@[simp] theorem writeIntEn_srcPtr (s : State) (d : Word) : (writeIntEn s d).srcPtr = s.srcPtr := rfl
@[simp] theorem writeIntEn_cnvPtr (s : State) (d : Word) : (writeIntEn s d).cnvPtr = s.cnvPtr := rfl
@[simp] theorem writeIntEn_outPtr (s : State) (d : Word) : (writeIntEn s d).outPtr = s.outPtr := rfl
@[simp] theorem writeIntEn_cur (s : State) (d : Word) : (writeIntEn s d).cur = s.cur := rfl
@[simp] theorem writeIntEn_pend (s : State) (d : Word) : (writeIntEn s d).pend = s.pend := rfl
@[simp] theorem writeIntEn_src (s : State) (d : Word) : (writeIntEn s d).src = s.src := rfl
@[simp] theorem writeIntEn_cnv (s : State) (d : Word) : (writeIntEn s d).cnv = s.cnv := rfl
@[simp] theorem writeIntEn_out (s : State) (d : Word) : (writeIntEn s d).out = s.out := rfl
@[simp] theorem writeIntEn_glut (s : State) (d : Word) : (writeIntEn s d).glut = s.glut := rfl
@[simp] theorem writeIntEn_input (s : State) (d : Word) : (writeIntEn s d).input = s.input := rfl
@[simp] theorem writeIntEn_resp (s : State) (d : Word) : (writeIntEn s d).resp = s.resp := rfl
@[simp] theorem writeIntEn_freeCount (s : State) (d : Word) : (writeIntEn s d).freeCount = s.freeCount := rfl

/-! ### `composeWrite` -/

@[simp] theorem composeWrite_srcW (s : State) (S : Raster) : (composeWrite s S).srcW = s.srcW := rfl
@[simp] theorem composeWrite_srcH (s : State) (S : Raster) : (composeWrite s S).srcH = s.srcH := rfl
@[simp] theorem composeWrite_canvasW (s : State) (S : Raster) : (composeWrite s S).canvasW = s.canvasW := rfl
@[simp] theorem composeWrite_canvasH (s : State) (S : Raster) : (composeWrite s S).canvasH = s.canvasH := rfl
@[simp] theorem composeWrite_contrast (s : State) (S : Raster) : (composeWrite s S).contrast = s.contrast := rfl
@[simp] theorem composeWrite_bright (s : State) (S : Raster) : (composeWrite s S).bright = s.bright := rfl
@[simp] theorem composeWrite_color (s : State) (S : Raster) : (composeWrite s S).color = s.color := rfl
@[simp] theorem composeWrite_sharp (s : State) (S : Raster) : (composeWrite s S).sharp = s.sharp := rfl
@[simp] theorem composeWrite_usmAmt (s : State) (S : Raster) : (composeWrite s S).usmAmt = s.usmAmt := rfl
@[simp] theorem composeWrite_usmThr (s : State) (S : Raster) : (composeWrite s S).usmThr = s.usmThr := rfl
@[simp] theorem composeWrite_busy (s : State) (S : Raster) : (composeWrite s S).busy = s.busy := rfl
@[simp] theorem composeWrite_done (s : State) (S : Raster) : (composeWrite s S).done = s.done := rfl
@[simp] theorem composeWrite_err (s : State) (S : Raster) : (composeWrite s S).err = s.err := rfl
@[simp] theorem composeWrite_ovr (s : State) (S : Raster) : (composeWrite s S).ovr = s.ovr := rfl
@[simp] theorem composeWrite_stage (s : State) (S : Raster) : (composeWrite s S).stage = s.stage := rfl
@[simp] theorem composeWrite_errCode (s : State) (S : Raster) : (composeWrite s S).errCode = s.errCode := rfl
@[simp] theorem composeWrite_errStage (s : State) (S : Raster) : (composeWrite s S).errStage = s.errStage := rfl
@[simp] theorem composeWrite_doneIe (s : State) (S : Raster) : (composeWrite s S).doneIe = s.doneIe := rfl
@[simp] theorem composeWrite_errIe (s : State) (S : Raster) : (composeWrite s S).errIe = s.errIe := rfl
@[simp] theorem composeWrite_newW (s : State) (S : Raster) : (composeWrite s S).newW = BitVec.ofNat 16 s.geometry.newW := rfl
@[simp] theorem composeWrite_newH (s : State) (S : Raster) : (composeWrite s S).newH = BitVec.ofNat 16 s.geometry.newH := rfl
@[simp] theorem composeWrite_offX (s : State) (S : Raster) : (composeWrite s S).offX = BitVec.ofNat 16 s.geometry.offX := rfl
@[simp] theorem composeWrite_offY (s : State) (S : Raster) : (composeWrite s S).offY = BitVec.ofNat 16 s.geometry.offY := rfl
@[simp] theorem composeWrite_mean (s : State) (S : Raster) : (composeWrite s S).mean = s.mean := rfl
@[simp] theorem composeWrite_srcPtr (s : State) (S : Raster) : (composeWrite s S).srcPtr = s.srcPtr := rfl
@[simp] theorem composeWrite_cnvPtr (s : State) (S : Raster) : (composeWrite s S).cnvPtr = s.cnvPtr := rfl
@[simp] theorem composeWrite_outPtr (s : State) (S : Raster) : (composeWrite s S).outPtr = s.outPtr := rfl
@[simp] theorem composeWrite_cur (s : State) (S : Raster) : (composeWrite s S).cur = s.cur := rfl
@[simp] theorem composeWrite_pend (s : State) (S : Raster) : (composeWrite s S).pend = s.pend := rfl
@[simp] theorem composeWrite_src (s : State) (S : Raster) : (composeWrite s S).src = s.src := rfl
@[simp] theorem composeWrite_cnv (s : State) (S : Raster) : (composeWrite s S).cnv = s.cnv.fill (composedCells params.kernel S s.width s.height) := rfl
@[simp] theorem composeWrite_out (s : State) (S : Raster) : (composeWrite s S).out = s.out := rfl
@[simp] theorem composeWrite_glut (s : State) (S : Raster) : (composeWrite s S).glut = s.glut := rfl
@[simp] theorem composeWrite_input (s : State) (S : Raster) : (composeWrite s S).input = s.input := rfl
@[simp] theorem composeWrite_resp (s : State) (S : Raster) : (composeWrite s S).resp = s.resp := rfl
@[simp] theorem composeWrite_freeCount (s : State) (S : Raster) : (composeWrite s S).freeCount = s.freeCount := rfl

/-! ### `forgetRasters` -/

@[simp] theorem forgetRasters_srcW (s : State) : (forgetRasters s).srcW = s.srcW := rfl
@[simp] theorem forgetRasters_srcH (s : State) : (forgetRasters s).srcH = s.srcH := rfl
@[simp] theorem forgetRasters_canvasW (s : State) : (forgetRasters s).canvasW = s.canvasW := rfl
@[simp] theorem forgetRasters_canvasH (s : State) : (forgetRasters s).canvasH = s.canvasH := rfl
@[simp] theorem forgetRasters_contrast (s : State) : (forgetRasters s).contrast = s.contrast := rfl
@[simp] theorem forgetRasters_bright (s : State) : (forgetRasters s).bright = s.bright := rfl
@[simp] theorem forgetRasters_color (s : State) : (forgetRasters s).color = s.color := rfl
@[simp] theorem forgetRasters_sharp (s : State) : (forgetRasters s).sharp = s.sharp := rfl
@[simp] theorem forgetRasters_usmAmt (s : State) : (forgetRasters s).usmAmt = s.usmAmt := rfl
@[simp] theorem forgetRasters_usmThr (s : State) : (forgetRasters s).usmThr = s.usmThr := rfl
@[simp] theorem forgetRasters_busy (s : State) : (forgetRasters s).busy = s.busy := rfl
@[simp] theorem forgetRasters_done (s : State) : (forgetRasters s).done = s.done := rfl
@[simp] theorem forgetRasters_err (s : State) : (forgetRasters s).err = s.err := rfl
@[simp] theorem forgetRasters_ovr (s : State) : (forgetRasters s).ovr = s.ovr := rfl
@[simp] theorem forgetRasters_stage (s : State) : (forgetRasters s).stage = s.stage := rfl
@[simp] theorem forgetRasters_errCode (s : State) : (forgetRasters s).errCode = s.errCode := rfl
@[simp] theorem forgetRasters_errStage (s : State) : (forgetRasters s).errStage = s.errStage := rfl
@[simp] theorem forgetRasters_doneIe (s : State) : (forgetRasters s).doneIe = s.doneIe := rfl
@[simp] theorem forgetRasters_errIe (s : State) : (forgetRasters s).errIe = s.errIe := rfl
@[simp] theorem forgetRasters_newW (s : State) : (forgetRasters s).newW = s.newW := rfl
@[simp] theorem forgetRasters_newH (s : State) : (forgetRasters s).newH = s.newH := rfl
@[simp] theorem forgetRasters_offX (s : State) : (forgetRasters s).offX = s.offX := rfl
@[simp] theorem forgetRasters_offY (s : State) : (forgetRasters s).offY = s.offY := rfl
@[simp] theorem forgetRasters_mean (s : State) : (forgetRasters s).mean = s.mean := rfl
@[simp] theorem forgetRasters_srcPtr (s : State) : (forgetRasters s).srcPtr = s.srcPtr := rfl
@[simp] theorem forgetRasters_cnvPtr (s : State) : (forgetRasters s).cnvPtr = s.cnvPtr := rfl
@[simp] theorem forgetRasters_outPtr (s : State) : (forgetRasters s).outPtr = s.outPtr := rfl
@[simp] theorem forgetRasters_cur (s : State) : (forgetRasters s).cur = s.cur := rfl
@[simp] theorem forgetRasters_pend (s : State) : (forgetRasters s).pend = s.pend := rfl
@[simp] theorem forgetRasters_src (s : State) : (forgetRasters s).src = [] := rfl
@[simp] theorem forgetRasters_cnv (s : State) : (forgetRasters s).cnv = [] := rfl
@[simp] theorem forgetRasters_out (s : State) : (forgetRasters s).out = [] := rfl
@[simp] theorem forgetRasters_glut (s : State) : (forgetRasters s).glut = s.glut := rfl
@[simp] theorem forgetRasters_input (s : State) : (forgetRasters s).input = s.input := rfl
@[simp] theorem forgetRasters_resp (s : State) : (forgetRasters s).resp = s.resp := rfl
@[simp] theorem forgetRasters_freeCount (s : State) : (forgetRasters s).freeCount = s.freeCount := rfl

/-! ### `resetRegisters` -/

@[simp] theorem resetRegisters_srcW (s : State) : (resetRegisters s).srcW = State.reset.srcW := rfl
@[simp] theorem resetRegisters_srcH (s : State) : (resetRegisters s).srcH = State.reset.srcH := rfl
@[simp] theorem resetRegisters_canvasW (s : State) : (resetRegisters s).canvasW = State.reset.canvasW := rfl
@[simp] theorem resetRegisters_canvasH (s : State) : (resetRegisters s).canvasH = State.reset.canvasH := rfl
@[simp] theorem resetRegisters_contrast (s : State) : (resetRegisters s).contrast = State.reset.contrast := rfl
@[simp] theorem resetRegisters_bright (s : State) : (resetRegisters s).bright = State.reset.bright := rfl
@[simp] theorem resetRegisters_color (s : State) : (resetRegisters s).color = State.reset.color := rfl
@[simp] theorem resetRegisters_sharp (s : State) : (resetRegisters s).sharp = State.reset.sharp := rfl
@[simp] theorem resetRegisters_usmAmt (s : State) : (resetRegisters s).usmAmt = State.reset.usmAmt := rfl
@[simp] theorem resetRegisters_usmThr (s : State) : (resetRegisters s).usmThr = State.reset.usmThr := rfl
@[simp] theorem resetRegisters_busy (s : State) : (resetRegisters s).busy = State.reset.busy := rfl
@[simp] theorem resetRegisters_done (s : State) : (resetRegisters s).done = State.reset.done := rfl
@[simp] theorem resetRegisters_err (s : State) : (resetRegisters s).err = State.reset.err := rfl
@[simp] theorem resetRegisters_ovr (s : State) : (resetRegisters s).ovr = State.reset.ovr := rfl
@[simp] theorem resetRegisters_stage (s : State) : (resetRegisters s).stage = State.reset.stage := rfl
@[simp] theorem resetRegisters_errCode (s : State) : (resetRegisters s).errCode = State.reset.errCode := rfl
@[simp] theorem resetRegisters_errStage (s : State) : (resetRegisters s).errStage = State.reset.errStage := rfl
@[simp] theorem resetRegisters_doneIe (s : State) : (resetRegisters s).doneIe = State.reset.doneIe := rfl
@[simp] theorem resetRegisters_errIe (s : State) : (resetRegisters s).errIe = State.reset.errIe := rfl
@[simp] theorem resetRegisters_newW (s : State) : (resetRegisters s).newW = State.reset.newW := rfl
@[simp] theorem resetRegisters_newH (s : State) : (resetRegisters s).newH = State.reset.newH := rfl
@[simp] theorem resetRegisters_offX (s : State) : (resetRegisters s).offX = State.reset.offX := rfl
@[simp] theorem resetRegisters_offY (s : State) : (resetRegisters s).offY = State.reset.offY := rfl
@[simp] theorem resetRegisters_mean (s : State) : (resetRegisters s).mean = State.reset.mean := rfl
@[simp] theorem resetRegisters_srcPtr (s : State) : (resetRegisters s).srcPtr = State.reset.srcPtr := rfl
@[simp] theorem resetRegisters_cnvPtr (s : State) : (resetRegisters s).cnvPtr = State.reset.cnvPtr := rfl
@[simp] theorem resetRegisters_outPtr (s : State) : (resetRegisters s).outPtr = State.reset.outPtr := rfl
@[simp] theorem resetRegisters_cur (s : State) : (resetRegisters s).cur = State.reset.cur := rfl
@[simp] theorem resetRegisters_pend (s : State) : (resetRegisters s).pend = State.reset.pend := rfl
@[simp] theorem resetRegisters_src (s : State) : (resetRegisters s).src = s.src := rfl
@[simp] theorem resetRegisters_cnv (s : State) : (resetRegisters s).cnv = s.cnv := rfl
@[simp] theorem resetRegisters_out (s : State) : (resetRegisters s).out = s.out := rfl
@[simp] theorem resetRegisters_glut (s : State) : (resetRegisters s).glut = State.reset.glut := rfl
@[simp] theorem resetRegisters_input (s : State) : (resetRegisters s).input = s.input := rfl
@[simp] theorem resetRegisters_resp (s : State) : (resetRegisters s).resp = s.resp := rfl
@[simp] theorem resetRegisters_freeCount (s : State) : (resetRegisters s).freeCount = s.freeCount := rfl

end Sys2Proof.Machine
end

