-- ==== Sys2Proof/Laws/Engine.lean ====
section
/-! SUPPORT. What the shared operations of the command mechanism can do, each said once: the lowest pending stage, a
stage, the engine step, a run of engine steps, the `CMD` write, a command. -/

namespace Sys2Proof.Machine

/-! ### Pending stages -/

theorem lowestPending_zero : lowestPending 0 = none := rfl

theorem lowestPending_eq_none {p : BitVec 9} : lowestPending p = none ↔ p = 0 := by
  revert p; decide +kernel

theorem Stage.bit_injective {a b : Stage} (h : a.bit = b.bit) : a = b := by
  cases a <;> cases b <;> first | rfl | (exact absurd h (by decide))

theorem Stage.bit_lt (st : Stage) : st.bit < 9 := by cases st <;> decide

theorem Stage.mem_all (st : Stage) : st ∈ Stage.all := by cases st <;> decide

/-- The lowest pending stage is set and no lower one is. -/
theorem lowestPending_isSome_spec : ∀ p : BitVec 9, ∀ st ∈ Stage.all, lowestPending p = some st →
    p.getLsbD st.bit = true ∧ ∀ j < st.bit, p.getLsbD j = false := by
  decide +kernel

theorem lowestPending_eq_some {p : BitVec 9} {st : Stage} :
    lowestPending p = some st ↔ p.getLsbD st.bit = true ∧ ∀ j < st.bit, p.getLsbD j = false := by
  constructor
  · exact lowestPending_isSome_spec p st st.mem_all
  · rintro ⟨h1, h2⟩
    cases hl : lowestPending p with
    | none => rw [lowestPending_eq_none.1 hl] at h1; simp at h1
    | some u =>
      have spec := lowestPending_isSome_spec p u u.mem_all hl
      congr 1
      apply Stage.bit_injective
      rcases Nat.lt_trichotomy u.bit st.bit with h | h | h
      · rw [h2 _ h] at spec; cases spec.1
      · exact h
      · rw [spec.2 _ h] at h1; cases h1

/-- The bits of `PEND` after a stage has run. -/
theorem clearPending_getLsbD (p : BitVec 9) (st : Stage) (j : Nat) (hj : j < 9) :
    (clearPending p st).getLsbD j = (p.getLsbD j && decide (j ≠ st.bit)) := by
  have := st.bit_lt
  by_cases h : st.bit = j
  · simp [clearPending, Stage.only, hj, h]
  · simp [clearPending, Stage.only, hj, Ne.symm h]

@[simp] theorem lowestPending_only (st : Stage) : lowestPending st.only = some st := by cases st <;> rfl

@[simp] theorem clearPending_only (st : Stage) : clearPending st.only st = 0 := by cases st <;> rfl

/-- Running a stage leaves fewer stages pending. -/
theorem clearPending_card : ∀ (p : BitVec 9), ∀ st ∈ Stage.all, lowestPending p = some st →
    ((Stage.all.filter fun u => (clearPending p st).getLsbD u.bit).length + 1 =
      (Stage.all.filter fun u => p.getLsbD u.bit).length) := by
  decide +kernel

/-! ### A stage -/

/-- What a stage that finishes has written: all else is as it was (R88). -/
theorem runStage_finished {st : Stage} {s t : State} (h : runStage st s = .finished t) :
    (st = .compose ∧ composeError s = none ∧ s.sourceWritten ∧ t = composeWrite s s.sourceRaster) ∨
    (st = .dither ∧ s.canvasLegal = true ∧ s.canvasWritten ∧
      t = { s with out := s.out.fill (ditherCells s.canvasRaster) }) ∨
    (st ≠ .compose ∧ st ≠ .dither ∧ s.canvasLegal = true ∧ s.canvasWritten ∧
      ∃ f m, t = { s with cnv := s.cnv.fill (render s.width s.height f), mean := m }) := by
  have key : ∀ {write : Raster → State}, onCanvas s write = .finished t →
      s.canvasLegal = true ∧ s.canvasWritten ∧ t = write s.canvasRaster := by
    intro write hw
    rcases onCanvas_cases s write with ⟨_, e⟩ | ⟨_, _, e⟩ | ⟨hl, hc, e⟩ <;> rw [e] at hw <;> cases hw
    exact ⟨hl, hc, rfl⟩
  cases st
  case compose =>
    left
    simp only [runStage, stageCompose] at h
    split at h
    · cases h
    · rename_i he
      split at h
      · cases h
      · rename_i S hS
        cases h
        obtain ⟨hw, rfl⟩ := sourceImage_cases hS
        exact ⟨rfl, he, hw, rfl⟩
  case dither =>
    obtain ⟨hl, hc, rfl⟩ := key h
    exact .inr (.inl ⟨rfl, hl, hc, rfl⟩)
  all_goals
    obtain ⟨hl, hc, rfl⟩ := key h
    refine .inr (.inr ⟨by decide, by decide, hl, hc, ?_⟩)
  case contrast =>
    exact ⟨fun x y => rgb888 fun c => blend (grayMean params s.canvasRaster) (s.canvasRaster.channel x y c)
      (factor s.contrast), _, rfl⟩
  case bright =>
    exact ⟨fun x y => rgb888 fun c => blend (brightReference params s.canvasRaster) (s.canvasRaster.channel x y c)
      (factor s.bright), _, rfl⟩
  case color =>
    exact ⟨fun x y => rgb888 fun c => blend (luma params (s.canvasRaster.pixel x y)) (s.canvasRaster.channel x y c)
      (factor s.color), _, rfl⟩
  case sharp =>
    exact ⟨fun x y => rgb888 fun c => blend (smooth params.smooth s.canvasRaster x y c)
      (s.canvasRaster.channel x y c) (factor s.sharp), _, rfl⟩
  case denoise =>
    exact ⟨fun x y => rgb888 fun c => gaussBlur params.denoiseTaps s.canvasRaster x y c, _, rfl⟩
  case unsharp =>
    exact ⟨fun x y => rgb888 fun c => unsharpMask (factor s.usmAmt) (s.usmThr.toNat : Int)
      (s.canvasRaster.channel x y c) (gaussBlur params.unsharpTaps s.canvasRaster x y c), _, rfl⟩
  case gamma =>
    exact ⟨fun x y => rgb888 fun c => ((glutGet s.glut (s.canvasRaster.channel x y c).toNat).toNat : Int), _, rfl⟩

/-- The errors a stage can raise (R131, R160, R261): nothing has been written. -/
theorem runStage_error {st : Stage} {s : State} {code : ErrorCode} (h : runStage st s = .error code) :
    (st = .compose ∧ composeError s = some code) ∨ (st ≠ .compose ∧ s.canvasLegal = false ∧ code = .badDim) := by
  have key : ∀ {write : Raster → State}, onCanvas s write = .error code →
      s.canvasLegal = false ∧ code = .badDim := by
    intro write hw
    rcases onCanvas_cases s write with ⟨hl, e⟩ | ⟨_, _, e⟩ | ⟨_, _, e⟩ <;> rw [e] at hw <;> cases hw
    exact ⟨hl, rfl⟩
  cases st
  case compose =>
    left
    simp only [runStage, stageCompose] at h
    split at h
    · rename_i he; cases h; exact ⟨rfl, he⟩
    · split at h <;> cases h
  all_goals
    obtain ⟨hl, rfl⟩ := key h
    exact .inr ⟨by decide, hl, rfl⟩

/-- A stage stops the model only on a cell it reads that is unwritten, its pre-checks passed (R89). -/
theorem runStage_unwritten {st : Stage} {s : State} {m : Memory} (h : runStage st s = .unwritten m) :
    (st = .compose ∧ composeError s = none ∧ ¬ s.sourceWritten ∧ m = .src) ∨
    (st ≠ .compose ∧ s.canvasLegal = true ∧ ¬ s.canvasWritten ∧ m = .cnv) := by
  have key : ∀ {write : Raster → State}, onCanvas s write = .unwritten m →
      s.canvasLegal = true ∧ ¬ s.canvasWritten ∧ m = .cnv := by
    intro write hw
    rcases onCanvas_cases s write with ⟨_, e⟩ | ⟨hl, hc, e⟩ | ⟨_, _, e⟩ <;> rw [e] at hw <;> cases hw
    exact ⟨hl, hc, rfl⟩
  cases st
  case compose =>
    left
    simp only [runStage, stageCompose] at h
    split at h
    · cases h
    · rename_i he
      split at h
      · rename_i hS
        cases h
        refine ⟨rfl, he, fun hw => ?_, rfl⟩
        rw [sourceImage_eq_some s hw] at hS; cases hS
      · cases h
  all_goals
    obtain ⟨hl, hc, rfl⟩ := key h
    exact .inr ⟨by decide, hl, hc, rfl⟩

/-- `COMPOSE` raises one of its four errors (R131). -/
theorem composeError_cases {s : State} {code : ErrorCode} (h : composeError s = some code) :
    code = .invalidInput ∨ code = .badDim ∨ code = .degenerate ∨ code = .kernel := by
  unfold composeError at h
  simp only at h
  split at h
  · simp_all
  · split at h
    · simp_all
    · split at h
      · simp_all
      · split at h <;> simp_all

/-- A `COMPOSE` without an error has usable dimensions (R131 check 2). -/
theorem composeError_none {s : State} (h : composeError s = none) :
    s.srcWidth ≠ 0 ∧ s.srcHeight ≠ 0 ∧ s.canvasLegal = true ∧ s.srcCells ≤ params.srcPixels ∧
      s.geometry.newW ≠ 0 ∧ s.geometry.newH ≠ 0 ∧
      axisPositive params.kernel s.srcWidth s.geometry.newW = true ∧
      axisPositive params.kernel s.srcHeight s.geometry.newH = true := by
  unfold composeError at h
  simp only at h
  split at h
  · cases h
  · split at h
    · cases h
    · split at h
      · cases h
      · split at h
        · cases h
        · simp only [not_or, not_not, not_lt] at *
          tauto

/-! ### The engine step -/

/-- A stage of the engine step: written and its bit cleared, its error recorded, or the model stopped (R241, R268). -/
theorem stageStep_cases (s : State) (st : Stage) :
    (∃ t, runStage st { s with stage := st.id } = .finished t ∧
      stageStep s st = .next { t with pend := clearPending t.pend st }) ∨
    (∃ code, runStage st { s with stage := st.id } = .error code ∧
      stageStep s st = .next (raiseStageError { s with stage := st.id } code st)) ∨
    (∃ m, runStage st { s with stage := st.id } = .unwritten m ∧ stageStep s st = .fault (.unwrittenCell m)) := by
  unfold stageStep
  cases h : runStage st { s with stage := st.id } with
  | finished t => exact .inl ⟨t, rfl, rfl⟩
  | error code => exact .inr (.inl ⟨code, rfl, rfl⟩)
  | unwritten m => exact .inr (.inr ⟨m, rfl, rfl⟩)

/-- The engine step: completion when nothing is pending, else the lowest pending stage (R241, R242). -/
theorem engineStep_cases (s : State) :
    (s.pend = 0 ∧ engineStep s = .next (complete s)) ∨
    (∃ st, lowestPending s.pend = some st ∧ engineStep s = stageStep s st) := by
  unfold engineStep
  cases h : lowestPending s.pend with
  | none => exact .inl ⟨lowestPending_eq_none.1 h, rfl⟩
  | some st => exact .inr ⟨st, rfl, rfl⟩

/-- A stage that finishes leaves the sequencing state, the flags and the host's side alone (R88). -/
theorem runStage_frame {st : Stage} {s t : State} (h : runStage st s = .finished t) :
    t = { s with
          cnv := t.cnv, out := t.out, newW := t.newW, newH := t.newH, offX := t.offX, offY := t.offY,
          mean := t.mean } := by
  rcases runStage_finished h with ⟨_, _, _, rfl⟩ | ⟨_, _, _, rfl⟩ | ⟨_, _, _, _, f, m, rfl⟩ <;> rfl

/-! ### A run of engine steps -/

theorem engineRun_idle (n : Nat) (s : State) (h : s.busy = false) : engineRun n s = .next s := by
  cases n <;> simp [engineRun, h]

theorem engineRun_succ (n : Nat) (s : State) (h : s.busy = true) :
    engineRun (n + 1) s =
      match engineStep s with
      | .next t => engineRun n t
      | .fault r => .fault r
      | .refused r => .refused r := by
  cases he : engineStep s <;> simp [engineRun, h, he]

/-- With nothing pending, a run of engine steps is the completion (R242). -/
theorem engineRun_complete (n : Nat) (s : State) (h : s.busy = true) (hp : s.pend = 0) :
    engineRun (n + 1) s = .next { s with busy := false, done := true } := by
  have he : engineStep s = .next (complete s) := by rw [engineStep, hp, lowestPending_zero]
  rw [engineRun_succ n s h, he]
  exact engineRun_idle n (complete s) rfl

/-- An invariant of the engine step is an invariant of a run of engine steps. -/
theorem engineRun_keeps {Inv : State → Prop}
    (hstep : ∀ s t, Inv s → s.busy = true → engineStep s = .next t → Inv t) :
    ∀ (n : Nat) (s t : State), Inv s → engineRun n s = .next t → Inv t := by
  intro n
  induction n with
  | zero => intro s t hs h; simp only [engineRun, Host.Outcome.next.injEq] at h; exact h ▸ hs
  | succ n ih =>
    intro s t hs h
    by_cases hb : s.busy = true
    · rw [engineRun_succ n s hb] at h
      split at h
      · rename_i u hu; exact ih u t (hstep s u hs hb hu) h
      · cases h
      · cases h
    · rw [engineRun_idle (n + 1) s (by simpa using hb)] at h
      cases h; exact hs

/-! ### The `CMD` write and a command -/

/-- The four cases of a `CMD` write (R240). -/
theorem writeCommand_cases (s : State) (w : Word) :
    (s.busy = true ∧ writeCommand s w = setOvr s) ∨
    (s.busy = false ∧ s.err = true ∧ w ≠ encode .srst ∧ writeCommand s w = setOvr s) ∨
    (s.busy = false ∧ s.err = false ∧ (∃ why, decode w = .illegal why) ∧ writeCommand s w = raiseIllegalCmd s) ∨
    (s.busy = false ∧ decode w = .instr .srst ∧ writeCommand s w = softReset s) ∨
    (s.busy = false ∧ s.err = false ∧ ∃ i, i ≠ .srst ∧ decode w = .instr i ∧
      writeCommand s w = accept s w (stageSet i)) := by
  by_cases hb : s.busy = true
  · exact .inl ⟨hb, by simp [writeCommand, hb]⟩
  have hb' : s.busy = false := by simpa using hb
  refine .inr ?_
  by_cases hs : w = encode .srst
  · subst hs
    exact .inr (.inr (.inl ⟨hb', rfl, by simp [writeCommand, hb', show decode (encode .srst) = .instr .srst from rfl]⟩))
  by_cases he : s.err = true
  · exact .inl ⟨hb', he, hs, by simp [writeCommand, hb', he, hs]⟩
  have he' : s.err = false := by simpa using he
  refine .inr ?_
  cases hd : decode w with
  | illegal why => exact .inl ⟨hb', he', ⟨why, rfl⟩, by simp [writeCommand, hb', he', hd]⟩
  | instr i =>
    by_cases hi : i = .srst
    · subst hi; exact .inr (.inl ⟨hb', rfl, by simp [writeCommand, hb', he', hd]⟩)
    · refine .inr (.inr ⟨hb', he', i, hi, rfl, ?_⟩)
      cases i <;> first | exact absurd rfl hi | simp [writeCommand, hb', he', hd]

/-- A command: discarded, or accepted and run (R240, R241). -/
theorem issue_cases (s : State) (w : Word) (stages : BitVec 9) :
    (s.busy = true ∧ issue s w stages = .next (setOvr s)) ∨
    (s.busy = false ∧ s.err = true ∧ issue s w stages = .next (setOvr s)) ∨
    (s.busy = false ∧ s.err = false ∧ issue s w stages = engineRun commandSteps (accept s w stages)) := by
  unfold issue
  by_cases hb : s.busy = true
  · simp [hb]
  · by_cases he : s.err = true <;> simp_all

/-- A single-stage command given to a ready block, by what its stage does: it completes in two engine steps, records
its error in one, or stops the model. -/
theorem issue_only (s : State) (w : Word) (st : Stage) (h : s.ready) :
    (∃ t, runStage st { accept s w st.only with stage := st.id } = .finished t ∧
      issue s w st.only = .next { t with pend := 0, busy := false, done := true }) ∨
    (∃ code, runStage st { accept s w st.only with stage := st.id } = .error code ∧
      issue s w st.only = .next (raiseStageError { accept s w st.only with stage := st.id } code st)) ∨
    (∃ m, runStage st { accept s w st.only with stage := st.id } = .unwritten m ∧
      issue s w st.only = .fault (.unwrittenCell m)) := by
  have hi : issue s w st.only = engineRun commandSteps (accept s w st.only) := by
    rcases issue_cases s w st.only with ⟨hb, _⟩ | ⟨_, he, _⟩ | ⟨_, _, e⟩
    · simp [h.1] at hb
    · simp [h.2] at he
    · exact e
  have he : engineStep (accept s w st.only) = stageStep (accept s w st.only) st := by
    simp [engineStep]
  rw [hi, show commandSteps = 9 + 1 from rfl, engineRun_succ 9 _ rfl, he]
  rcases stageStep_cases (accept s w st.only) st with ⟨t, hr, e⟩ | ⟨code, hr, e⟩ | ⟨m, hr, e⟩
  · refine .inl ⟨t, hr, ?_⟩
    have hf := runStage_frame hr
    have hp : t.pend = st.only := by rw [hf]; rfl
    have hb : t.busy = true := by rw [hf]; rfl
    simp only [e, hp, clearPending_only]
    exact engineRun_complete 8 _ hb rfl
  · refine .inr (.inl ⟨code, hr, ?_⟩)
    simp only [e]
    exact engineRun_idle _ _ rfl
  · exact .inr (.inr ⟨m, hr, by simp only [e]⟩)

end Sys2Proof.Machine
end

