-- ==== Sys2Proof/Laws/HostPort.lean ====
section
/-! SUPPORT. What a host transaction, a `STATUS` write and the hardware reset can do, each said once. -/

namespace Sys2Proof.Machine

/-! ### The register fields at the decided widths (R6) -/

@[simp] theorem keepBits_full {w n : Nat} (h : w ≤ n) (x : BitVec w) : keepBits n x = x := by
  apply BitVec.eq_of_toNat_eq
  simp only [keepBits, BitVec.toNat_setWidth]
  rw [Nat.mod_eq_of_lt (Nat.lt_of_lt_of_le x.isLt (Nat.pow_le_pow_right (by omega) h)), Nat.mod_eq_of_lt x.isLt]

/-- The field keeps the low bits, whatever the width. -/
theorem keepBits_toNat {w : Nat} (n : Nat) (x : BitVec w) : (keepBits n x).toNat = x.toNat % 2 ^ n := by
  simp only [keepBits, BitVec.toNat_setWidth]
  exact Nat.mod_eq_of_lt (Nat.lt_of_le_of_lt (Nat.mod_le _ _) x.isLt)

theorem pointerField_toNat (d : Word) (p : Params) : (pointerField d p).toNat = d.toNat % 2 ^ p.ptrBits :=
  keepBits_toNat p.ptrBits d

theorem pointerIndex_eq (ptr : Word) (p : Params) : pointerIndex ptr p = ptr.toNat % 2 ^ p.ptrBits :=
  pointerField_toNat ptr p

theorem pointerField_lt (d : Word) (p : Params) : (pointerField d p).toNat < 2 ^ p.ptrBits := by
  rw [pointerField_toNat]; exact Nat.mod_lt _ (Nat.two_pow_pos _)

/-- A pointer that fits its field is the field. -/
theorem pointerField_of_lt {d : Word} {p : Params} (h : d.toNat < 2 ^ p.ptrBits) : pointerField d p = d := by
  apply BitVec.eq_of_toNat_eq
  rw [pointerField_toNat, Nat.mod_eq_of_lt h]

theorem pointerIndex_of_lt {ptr : Word} {p : Params} (h : ptr.toNat < 2 ^ p.ptrBits) :
    pointerIndex ptr p = ptr.toNat := by
  rw [pointerIndex_eq, Nat.mod_eq_of_lt h]

theorem advance_lt (ptr : Word) (p : Params) : (advance ptr p).toNat < 2 ^ p.ptrBits := pointerField_lt _ p

@[simp] theorem dimField_params (d : Word) (lo : Nat) : dimField d lo = d.extractLsb' lo 16 :=
  keepBits_full (Nat.le_refl 16) _

/-! ### Transactions -/

/-- An aligned word read is the read of the register the map selects (R71, R72). -/
theorem hostRead_word (s : State) (a : Offset) (h : a.toNat % 4 = 0) :
    hostRead s .word a = (.data (readReg s (portReg (a.toNat / 4))).1, (readReg s (portReg (a.toNat / 4))).2) := by
  simp [hostRead, regAt, h]

/-- An aligned word write is the write of the register the map selects (R71, R72). -/
theorem hostWrite_word (s : State) (a : Offset) (d : Word) (h : a.toNat % 4 = 0) :
    hostWrite s .word a d = writeReg s d (portReg (a.toNat / 4)) := by
  simp [hostWrite, regAt, h]

/-- The map selects an entry of `GLUT` only below 256 (R78). -/
theorem portReg_glut_lt {k v : Nat} (h : portReg k = .glut v) : v < 256 := by
  unfold portReg at h
  split at h
  case h_22 =>
    split at h
    · rename_i hk
      injection h with h
      exact h ▸ Nat.sub_lt_left_of_lt_add hk.1 hk.2
    · cases h
  all_goals cases h

/-- The `STATUS` write, field by field (R249). -/
theorem writeStatus_eq (s : State) (d : Word) :
    writeStatus s d =
      { s with
        done := s.done && !d.getLsbD 1
        err := s.err && !d.getLsbD 2
        errCode := if d.getLsbD 2 then 0 else s.errCode
        errStage := if d.getLsbD 2 then 0 else s.errStage
        ovr := s.ovr && !d.getLsbD 3 } := by
  unfold writeStatus
  cases d.getLsbD 1 <;> cases d.getLsbD 2 <;> cases d.getLsbD 3 <;> simp [clearError]

/-- A read changes at most the pointers, `OVR` and the counter of free values (R80, R82). -/
theorem readReg_frame (s : State) (r : PortReg) :
    (readReg s r).2 =
      { s with
        ovr := (readReg s r).2.ovr, srcPtr := (readReg s r).2.srcPtr, cnvPtr := (readReg s r).2.cnvPtr,
        outPtr := (readReg s r).2.outPtr, freeCount := (readReg s r).2.freeCount } := by
  cases r <;> first | rfl | (simp only [readReg, ifIdleRead]; split <;> rfl)

/-- While `BUSY = 1` a read changes at most `OVR` (R82). -/
theorem readReg_busy (s : State) (r : PortReg) (h : s.busy = true) :
    (readReg s r).2 = s ∨ (readReg s r).2 = setOvr s := by
  cases r <;> first | exact .inl rfl | exact .inr (by simp only [readReg, ifIdleRead, h, if_true])

/-- While `BUSY = 1` a write is ignored, is discarded with `OVR`, or is one of `STATUS` or `INT_EN` (R82). -/
theorem writeReg_busy (s : State) (d : Word) (r : PortReg) (h : s.busy = true) :
    writeReg s d r = s ∨ writeReg s d r = setOvr s ∨ writeReg s d r = writeStatus s d ∨
      writeReg s d r = writeIntEn s d := by
  cases r
  case status => exact .inr (.inr (.inl rfl))
  case intEn => exact .inr (.inr (.inr rfl))
  all_goals
    first
    | exact .inl rfl
    | exact .inr (.inl (by simp only [writeReg, writeCommand, ifIdle, h, if_true]))

/-- A write never touches `OUT`, `input`, the answer of the last read or the counter of free values, and changes `CUR`
and `PEND` only through `CMD`. -/
theorem writeReg_frame (s : State) (d : Word) (r : PortReg) :
    (writeReg s d r).out = s.out ∧ (writeReg s d r).input = s.input ∧ (writeReg s d r).resp = s.resp ∧
      (writeReg s d r).freeCount = s.freeCount ∧
      (r ≠ .cmd → (writeReg s d r).cur = s.cur ∧ (writeReg s d r).pend = s.pend) := by
  cases r
  case status => simp [writeReg, writeStatus_eq]
  case cmd =>
    simp only [writeReg, writeCommand]
    split
    · simp
    · split
      · simp
      · split <;> simp [softReset]
  all_goals
    first
    | exact ⟨rfl, rfl, rfl, rfl, fun _ => ⟨rfl, rfl⟩⟩
    | (simp only [writeReg, ifIdle]; split <;> exact ⟨rfl, rfl, rfl, rfl, fun _ => ⟨rfl, rfl⟩⟩)

/-- Every host write keeps the canonical form of the memories. -/
theorem writeReg_memWf (s : State) (d : Word) (k : Nat) (h : s.memWf = true) :
    (writeReg s d (portReg k)).memWf = true := by
  have hg : ∀ v, portReg k = .glut v → v < 256 := fun v => portReg_glut_lt
  generalize portReg k = r at hg
  cases r
  case glut v =>
    simp only [writeReg, ifIdle]
    split
    · exact h
    · simp only [State.memWf, Bool.and_eq_true] at *
      exact ⟨h.1, glutWf_glutPut s.glut v _ (hg v rfl) h.2⟩
  case srcData =>
    simp only [writeReg, ifIdle]
    split
    · exact h
    · simp only [State.memWf, Bool.and_eq_true, writeSrcData] at *
      refine ⟨⟨⟨?_, h.1.1.2⟩, h.1.2⟩, h.2⟩
      split
      · rename_i hi; exact Mem.wf_put _ _ hi h.1.1.1
      · exact h.1.1.1
  case cnvData =>
    simp only [writeReg, ifIdle]
    split
    · exact h
    · simp only [State.memWf, Bool.and_eq_true, writeCnvData] at *
      refine ⟨⟨⟨h.1.1.1, ?_⟩, h.1.2⟩, h.2⟩
      split
      · rename_i hi; exact Mem.wf_put _ _ hi h.1.1.2
      · exact h.1.1.2
  case status => simpa [writeReg, writeStatus_eq, State.memWf] using h
  case cmd =>
    have hr : (resetRegisters s).memWf = true := by
      simp only [State.memWf, Bool.and_eq_true] at *
      exact ⟨h.1, rfl⟩
    simp only [writeReg, writeCommand]
    split
    · exact h
    · split
      · exact h
      · split
        · exact h
        · exact hr
        · exact h
  all_goals
    first
    | exact h
    | (simp only [writeReg, ifIdle]; split <;> exact h)

/-- Every host write keeps the pointers inside their fields. -/
theorem writeReg_pointersLegal (s : State) (d : Word) (r : PortReg) (h : s.pointersLegal = true) :
    (writeReg s d r).pointersLegal = true := by
  simp only [State.pointersLegal, Bool.and_eq_true, decide_eq_true_eq] at *
  cases r
  case status => simpa [writeReg, writeStatus_eq] using h
  case cmd =>
    simp only [writeReg, writeCommand]
    split
    · exact h
    · split
      · exact h
      · split
        · exact h
        · exact ⟨⟨Nat.two_pow_pos _, Nat.two_pow_pos _⟩, Nat.two_pow_pos _⟩
        · exact h
  case srcPtr =>
    simp only [writeReg, ifIdle]
    split
    · exact h
    · exact ⟨⟨pointerField_lt d _, h.1.2⟩, h.2⟩
  case cnvPtr =>
    simp only [writeReg, ifIdle]
    split
    · exact h
    · exact ⟨⟨h.1.1, pointerField_lt d _⟩, h.2⟩
  case outPtr =>
    simp only [writeReg, ifIdle]
    split
    · exact h
    · exact ⟨h.1, pointerField_lt d _⟩
  case srcData =>
    simp only [writeReg, ifIdle]
    split
    · exact h
    · exact ⟨⟨advance_lt _ _, h.1.2⟩, h.2⟩
  case cnvData =>
    simp only [writeReg, ifIdle]
    split
    · exact h
    · exact ⟨⟨h.1.1, advance_lt _ _⟩, h.2⟩
  all_goals
    first
    | exact h
    | (simp only [writeReg, ifIdle]; split <;> exact h)

/-- Every host read keeps the pointers inside their fields. -/
theorem readReg_pointersLegal (s : State) (r : PortReg) (h : s.pointersLegal = true) :
    (readReg s r).2.pointersLegal = true := by
  simp only [State.pointersLegal, Bool.and_eq_true, decide_eq_true_eq] at *
  cases r
  case srcData =>
    simp only [readReg, ifIdleRead]
    split
    · exact h
    · exact ⟨⟨advance_lt _ _, h.1.2⟩, h.2⟩
  case cnvData =>
    simp only [readReg, ifIdleRead]
    split
    · exact h
    · exact ⟨⟨h.1.1, advance_lt _ _⟩, h.2⟩
  case outData =>
    simp only [readReg, ifIdleRead]
    split
    · exact h
    · exact ⟨h.1, advance_lt _ _⟩
  all_goals
    first
    | exact h
    | (simp only [readReg, ifIdleRead]; split <;> exact h)

/-- What the hardware reset leaves: the reset values, and of the memories nothing on an idle block, on a busy one the
source and in one of the other two at most fewer written cells (R300, R302). -/
theorem hardReset_cases (s : State) :
    (s.busy = false ∧ hardReset s = resetRegisters (forgetRasters s)) ∨
    (s.busy = true ∧ hardReset s = resetRegisters s) ∨
    (s.busy = true ∧ ∃ n, hardReset s = resetRegisters { s with cnv := s.cnv.dropBelow n }) ∨
    (s.busy = true ∧ ∃ n, hardReset s = resetRegisters { s with out := s.out.dropBelow n }) := by
  unfold hardReset abandonCommand
  cases hb : s.busy with
  | false => exact .inl ⟨rfl, rfl⟩
  | true =>
    refine .inr ?_
    rw [if_pos rfl]
    split
    · exact .inl ⟨rfl, rfl⟩
    · rename_i st _
      unfold abandonStage
      split
      · cases st <;> first | exact .inr (.inr ⟨rfl, _, rfl⟩) | exact .inr (.inl ⟨rfl, _, rfl⟩)
      · exact .inl ⟨rfl, rfl⟩

end Sys2Proof.Machine
end

