-- ==== Sys2Proof/Laws/PerInstr.lean ====
section
/-! SUPPORT. Statements made per instruction, one lemma for each constructor of `Instr`. -/

namespace Sys2Proof

/-- The opcode field of the word of `RUN` (R101). -/
theorem opcodeField_run (operand : BitVec 24) : opcodeField (encode (.run operand)) = 0x10#8 := by
  apply BitVec.eq_of_getLsbD_eq
  intro i hi
  have h : (0x10#8 ++ operand).getLsbD (24 + i) = (0x10#8).getLsbD i := by
    rw [BitVec.getLsbD_append, if_neg (by omega), Nat.add_sub_cancel_left]
  simpa [opcodeField, encode, hi] using h

/-- The operand field of the word of `RUN` is its operand (R100). -/
theorem operandField_run (operand : BitVec 24) : operandField (encode (.run operand)) = operand := by
  apply BitVec.eq_of_getLsbD_eq
  intro i hi
  have h : (0x10#8 ++ operand).getLsbD i = operand.getLsbD i := by rw [BitVec.getLsbD_append, if_pos hi]
  simpa [operandField, encode, hi] using h

end Sys2Proof

namespace Sys2Proof.Laws.DecodeEncode

/-- The decoder reads the encoder's word of a well-formed command as that command (R100 to R103). -/
def Statement (i : Instr) : Prop := i.wellFormed = true → decode (encode i) = .instr i

theorem nop : Statement .nop := fun _ => rfl
theorem compose : Statement .compose := fun _ => rfl
theorem contrast : Statement .contrast := fun _ => rfl
theorem bright : Statement .bright := fun _ => rfl
theorem color : Statement .color := fun _ => rfl
theorem sharp : Statement .sharp := fun _ => rfl
theorem denoise : Statement .denoise := fun _ => rfl
theorem unsharp : Statement .unsharp := fun _ => rfl
theorem gamma : Statement .gamma := fun _ => rfl
theorem dither : Statement .dither := fun _ => rfl
theorem srst : Statement .srst := fun _ => rfl

theorem run (operand : BitVec 24) : Statement (.run operand) := by
  intro h
  have h' : operandReserved operand = 0 := by simpa [Instr.wellFormed] using h
  simp only [decode, opcodeField_run, operandField_run]
  simp [h']

end Sys2Proof.Laws.DecodeEncode
end

