-- ==== Sys2Proof/Laws/Schedule.lean ====
section
/-! SUPPORT. What a step does with the next entry of `input`, said once, and what a turn can do. -/

namespace Sys2Proof.Machine

/-- Bit 0 of the `STATUS` word is `BUSY` (R31). -/
theorem statusWord_busy (s : State) : (statusWord s).getLsbD 0 = s.busy := by
  unfold statusWord flagBit
  rw [BitVec.getLsbD_append]
  cases s.busy <;> rfl

/-- A poll that reads `BUSY = 1` is followed by an engine step and another poll, any other by the rest (log 19). -/
theorem afterPoll_eq (s : State) (rest : List Input) :
    afterPoll s rest = if s.busy then .turn .engine :: .wait :: rest else rest := by
  rw [afterPoll, statusWord_busy]

/-- The four kinds of step: a command word, a turn, a poll, and with no input the engine's turn (log 1, log 2). -/
theorem step_cases (s : State) :
    (∃ w rest, s.input = .command w :: rest ∧ step s = runCommand w { s with input := rest }) ∨
    (∃ t rest, s.input = .turn t :: rest ∧ step s = takeTurn { s with input := rest } t) ∨
    (∃ rest, s.input = .wait :: rest ∧
      step s = takeTurn { s with input := afterPoll s rest } (.read .word 0x00C)) ∨
    (s.input = [] ∧ step s = takeTurn s .engine) := by
  unfold step takeInput nextInput
  cases h : s.input with
  | nil => exact .inr (.inr (.inr ⟨rfl, rfl⟩))
  | cons x rest =>
    cases x with
    | command w => exact .inl ⟨w, rest, rfl, rfl⟩
    | turn t => exact .inr (.inl ⟨t, rest, rfl, rfl⟩)
    | wait => exact .inr (.inr (.inl ⟨rest, rfl, rfl⟩))

/-- A turn: a host transaction, a step of the busy engine, nothing, or the hardware reset (R70, R241, R300). -/
theorem takeTurn_cases (s : State) (t : Turn) :
    (∃ width a, t = .read width a ∧
      takeTurn s t = .next { (hostRead s width a).2 with resp := some (hostRead s width a).1 }) ∨
    (∃ width a d, t = .write width a d ∧ takeTurn s t = .next (hostWrite s width a d)) ∨
    (t = .engine ∧ s.busy = true ∧ takeTurn s t = engineStep s) ∨
    (t = .engine ∧ s.busy = false ∧ takeTurn s t = .next s) ∨
    (t = .hardReset ∧ takeTurn s t = .next (hardReset s)) := by
  cases t with
  | read width a => exact .inl ⟨width, a, rfl, rfl⟩
  | write width a d => exact .inr (.inl ⟨width, a, d, rfl, rfl⟩)
  | engine => cases h : s.busy <;> simp [takeTurn, h]
  | hardReset => exact .inr (.inr (.inr (.inr ⟨rfl, rfl⟩)))

end Sys2Proof.Machine
end

