-- ==== Sys2Proof/Laws/Stages.lean ====
section
/-! SUPPORT. The stages 2 to 9 as commands, and the arithmetic they share: what a stage command answers, what the new
canvas reads as, and the range of every channel value. -/

namespace Sys2Proof.Machine

/-! ### A stage command on the canvas -/

/-- A command of one stage over the canvas, given to a ready block: by the canvas it stops on BAD_DIM, writes and
completes, or stops the model. -/
theorem issue_onCanvas (s : State) (w : Word) (st : Stage) (h : s.ready) (write : State → Raster → State)
    (hr : ∀ u, runStage st u = onCanvas u (write u)) :
    (s.canvasLegal = false ∧
      issue s w st.only = .next (raiseStageError { accept s w st.only with stage := st.id } .badDim st)) ∨
    (s.canvasLegal = true ∧ ¬ s.canvasWritten ∧ issue s w st.only = .fault (.unwrittenCell .cnv)) ∨
    (s.canvasLegal = true ∧ s.canvasWritten ∧
      issue s w st.only = .next
        { write { accept s w st.only with stage := st.id } s.canvasRaster with pend := 0, busy := false, done := true }) := by
  have key := issue_only s w st h
  rw [hr] at key
  rcases onCanvas_cases { accept s w st.only with stage := st.id }
      (write { accept s w st.only with stage := st.id }) with ⟨hl, e⟩ | ⟨hl, hc, e⟩ | ⟨hl, hc, e⟩ <;> rw [e] at key
  · refine .inl ⟨hl, ?_⟩
    rcases key with ⟨t, ht, _⟩ | ⟨c, hc, e'⟩ | ⟨m, hm, _⟩
    · cases ht
    · cases hc; exact e'
    · cases hm
  · refine .inr (.inl ⟨hl, hc, ?_⟩)
    rcases key with ⟨t, ht, _⟩ | ⟨c, hc, _⟩ | ⟨m, hm, e'⟩
    · cases ht
    · cases hc
    · cases hm; exact e'
  · refine .inr (.inr ⟨hl, hc, ?_⟩)
    rcases key with ⟨t, ht, e'⟩ | ⟨c, hc, _⟩ | ⟨m, hm, _⟩
    · cases ht; exact e'
    · cases hc
    · cases hm

/-- The channels of the canvas after a stage has written `mapChannels`, and the cells it leaves alone. -/
theorem get_fill_mapChannels (m : Mem 24) (P : Raster) (f : Nat → Nat → Channel → Int)
    (hf : ∀ x < P.width, ∀ y < P.height, ∀ c, 0 ≤ f x y c ∧ f x y c ≤ 255) :
    (∀ x < P.width, ∀ y < P.height, ∀ c,
      ((m.fill (mapChannels P f)).get (y * P.width + x)).map (chan · c) = some (f x y c)) ∧
    ∀ k, P.width * P.height ≤ k → (m.fill (mapChannels P f)).get k = m.get k := by
  obtain ⟨h1, h2⟩ := get_fill_render m P.width P.height fun x y => rgb888 (f x y)
  refine ⟨fun x hx y hy c => ?_, h2⟩
  unfold mapChannels
  rw [h1 x hx y hy, Option.map_some, chan_rgb888 _ (hf x hx y hy)]

/-! ### The canvas as a raster -/

theorem canvasRaster_channel (s : State) {x y : Nat} (hx : x < s.width) (hy : y < s.height) (c : Channel) :
    s.canvasRaster.channel x y c = s.canvasChan x y c := by
  rw [Raster.channel, canvasRaster_pixel s hx hy]; rfl

theorem canvasRaster_at (s : State) (hw : s.width ≠ 0) (hh : s.height ≠ 0) (x y : Int) (c : Channel) :
    s.canvasRaster.at x y c = s.canvasAt x y c := by
  have h1 := clamp_range (v := x) (lo := 0) (hi := s.width - 1) (by omega)
  have h2 := clamp_range (v := y) (lo := 0) (hi := s.height - 1) (by omega)
  exact canvasRaster_channel s (by show (clamp x 0 ((s.width : Int) - 1)).toNat < _; omega)
    (by show (clamp y 0 ((s.height : Int) - 1)).toNat < _; omega) c

theorem canvasChan_range (s : State) (x y : Nat) (c : Channel) : 0 ≤ s.canvasChan x y c ∧ s.canvasChan x y c ≤ 255 :=
  chan_range _ c

theorem canvasAt_range (s : State) (x y : Int) (c : Channel) : 0 ≤ s.canvasAt x y c ∧ s.canvasAt x y c ≤ 255 :=
  chan_range _ c

/-! ### The ranges of the stages' values -/

theorem blend_range (ref v F : Int) : 0 ≤ blend ref v F ∧ blend ref v F ≤ 255 := clamp8_range _

theorem unsharpMask_range {v : Int} (amt thr b : Int) (h : 0 ≤ v) (h' : v ≤ 255) :
    0 ≤ unsharpMask amt thr v b ∧ unsharpMask amt thr v b ≤ 255 := by
  unfold unsharpMask
  dsimp only
  split
  · exact clamp8_range _
  · exact ⟨h, h'⟩

theorem luma_range (p : Pixel) : 0 ≤ luma params p ∧ luma params p ≤ 255 := by
  have hr := chan_range p .red
  have hg := chan_range p .green
  have hb := chan_range p .blue
  simp only [luma, params, asr, floorDiv]
  omega

theorem list_sum_bounds {l : List Int} {lo hi : Int} (h : ∀ v ∈ l, lo ≤ v ∧ v ≤ hi) :
    lo * l.length ≤ l.sum ∧ l.sum ≤ hi * l.length := by
  induction l with
  | nil => simp
  | cons v l ih =>
    have h1 := h v (by simp)
    have h2 := ih fun u hu => h u (by simp [hu])
    simp only [List.sum_cons, List.length_cons, Nat.cast_add, Nat.cast_one, mul_add, mul_one]
    omega

/-- The gray mean of a raster with cells lies in 0..255, so it fits `MEAN.M` (R162). -/
theorem grayMean_range (P : Raster) (hn : P.width * P.height ≠ 0) (hc : P.cells.size = P.width * P.height) :
    0 ≤ grayMean params P ∧ grayMean params P ≤ 255 := by
  have h : ∀ v ∈ P.cells.toList.map (luma params), 0 ≤ v ∧ v ≤ 255 := by
    intro v hv
    obtain ⟨p, _, rfl⟩ := List.mem_map.1 hv
    exact luma_range p
  have hs := list_sum_bounds h
  rw [List.length_map, Array.length_toList, hc] at hs
  unfold grayMean
  rw [rhu_eq]
  have hpos : (0 : Int) < (P.width * P.height : Nat) := by omega
  constructor
  · exact Int.ediv_nonneg (by omega) (by omega)
  · have : (2 * (P.cells.toList.map (luma params)).sum + (P.width * P.height : Nat)) / (2 * (P.width * P.height : Nat)) < 256 :=
      Int.ediv_lt_of_lt_mul (by omega) (by omega)
    omega

end Sys2Proof.Machine
end

