-- ==== Sys2Proof/Machine/Script.lean ====
section
/-! DEFINITION. Host scripts (spec/30_encoding.md R113): the instructions and pseudo-instructions as lists of inputs.
Offsets are those of the address map (spec/20_memory.md R71). -/

namespace Sys2Proof.Machine

/-- `wr <reg>, <value>`. -/
def Script.wr (a : Offset) (d : Word) : Input := .turn (.write .word a d)

/-- `rd <reg>`. -/
def Script.rd (a : Offset) : Input := .turn (.read .word a)

/-- `cmd <mnemonic ...>`: the write of the command word to `CMD`. -/
def Script.cmd (i : Instr) : Input := Script.wr 0x008 (encode i)

/-- `wait`: read `STATUS` until `BUSY = 0` (log 19). -/
def Script.wait : Input := .wait

/-- The offset of `GLUT[v]` (R71, R78). -/
def Script.glutOffset (v : Nat) : Offset := BitVec.ofNat 12 (0x400 + 4 * v)

/-- The word of a dimension register, `(h << 16) | w`. -/
def Script.dims (w h : Nat) : Word := BitVec.ofNat 16 h ++ BitVec.ofNat 16 w

/-- `pipeline`. -/
def Script.pipeline : List Input := [Script.cmd (.run 0x1FF)]

/-- `enhance`, stages 2 to 7. -/
def Script.enhance : List Input := [Script.cmd (.run 0x07E)]

/-- `loadsrc w, h, p0, p1, ...`, the pixels in row-major order. -/
def Script.loadsrc (w h : Nat) (pixels : List Pixel) : List Input :=
  Script.wr 0x018 (Script.dims w h) :: Script.wr 0x040 0 :: pixels.map fun p => Script.wr 0x044 (p.setWidth 32)

/-- `loadcnv w, h, p0, p1, ...`, the pixels in row-major order. -/
def Script.loadcnv (w h : Nat) (pixels : List Pixel) : List Input :=
  Script.wr 0x01C (Script.dims w h) :: Script.wr 0x048 0 :: pixels.map fun p => Script.wr 0x04C (p.setWidth 32)

/-- `readout n`. -/
def Script.readout (n : Nat) : List Input := Script.wr 0x050 0 :: List.replicate n (Script.rd 0x054)

/-- `readcnv n`. -/
def Script.readcnv (n : Nat) : List Input := Script.wr 0x048 0 :: List.replicate n (Script.rd 0x04C)

/-- `glut_identity`. -/
def Script.glutIdentity : List Input :=
  (List.range 256).map fun v => Script.wr (Script.glutOffset v) (BitVec.ofNat 32 v)

/-- `clrstat`. -/
def Script.clrstat : List Input := [Script.wr 0x00C 0x0000000E]

end Sys2Proof.Machine
end

