-- ==== Sys2Proof/Tests/Slice0.lean ====
section
/-! SUPPORT. Tests, with expected results from spec/95_test_vectors.md and the encodings of spec/30_encoding.md (the
source of each is named), and for every obligation with hypotheses a witness that meets them. -/

namespace Sys2Proof.Tests

open Sys2Proof.Machine Sys2Proof.Claims

/-! ### Helpers -/

/-- A result is a next state with a property. -/
def answers (r : Result) (p : State → Bool) : Bool :=
  match r with
  | .next t => p t
  | .fault _ => false
  | .refused _ => false

/-- A result is the fault of an unwritten cell. -/
def faultsOn (r : Result) (m : Memory) : Bool :=
  match r with
  | .fault (.unwrittenCell n) => m == n
  | .next _ => false
  | .refused _ => false

/-- After reset, with a canvas of the given size and cells. -/
def canvas (w h : BitVec 16) (cells : List Pixel) : State :=
  { State.reset with canvasW := w, canvasH := h, cnv := Mem.run 0 cells }

/-- After reset, with a source and a canvas size. -/
def withSource (sw sh w h : BitVec 16) (cells : List Pixel) : State :=
  { State.reset with srcW := sw, srcH := sh, canvasW := w, canvasH := h, src := Mem.run 0 cells }

/-- The canvas A of section 2.4. -/
def onA : State :=
  canvas 3 3 [0x0A141E, 0x28323C, 0x46505A, 0x646E78, 0x828C96, 0xA0AAB4, 0xBEC8D2, 0xDCE6F0, 0xFAFF00]

/-- The pixels of the canvas. -/
def pixels (t : State) : List Pixel := t.cnv.map Prod.snd

/-- Host writes and engine steps, one after another. -/
def play (s : State) : List Turn → Result
  | [] => .next s
  | t :: ts =>
    match takeTurn s t with
    | .next u => play u ts
    | .fault r => .fault r
    | .refused r => .refused r

/-- A host word write. -/
abbrev wr (a : Offset) (d : Word) : Turn := .write .word a d

/-- A host word read. -/
abbrev rd (a : Offset) : Turn := .read .word a

/-! ### WellFormed -/

/-- `RUN` with bit 9 set, the lowest bit of `RSV`, is no command (R100). -/
theorem test_wellFormed_refuses_run_bit9 : (Instr.run 0x000200).wellFormed = false := by decide

/-- `RUN` with bit 23 set, the highest bit of `RSV`, is no command (R100). -/
theorem test_wellFormed_refuses_run_bit23 : (Instr.run 0x8001FF).wellFormed = false := by decide

/-- `RUN` with every stage is a command (R101). -/
theorem test_wellFormed_run_all : (Instr.run 0x0001FF).wellFormed = true := by decide

/-! ### Decoding: the words of R101, `OPC` in bits 31:24, `RSV` in 23:9, `MASK` in 8:0 -/

theorem test_decode_nop : decode 0b00000000_000000000000000_000000000#32 = .instr .nop := by decide
theorem test_decode_compose : decode 0b00000001_000000000000000_000000000#32 = .instr .compose := by decide
theorem test_decode_contrast : decode 0b00000010_000000000000000_000000000#32 = .instr .contrast := by decide
theorem test_decode_bright : decode 0b00000011_000000000000000_000000000#32 = .instr .bright := by decide
theorem test_decode_color : decode 0b00000100_000000000000000_000000000#32 = .instr .color := by decide
theorem test_decode_sharp : decode 0b00000101_000000000000000_000000000#32 = .instr .sharp := by decide
theorem test_decode_denoise : decode 0b00000110_000000000000000_000000000#32 = .instr .denoise := by decide
theorem test_decode_unsharp : decode 0b00000111_000000000000000_000000000#32 = .instr .unsharp := by decide
theorem test_decode_gamma : decode 0b00001000_000000000000000_000000000#32 = .instr .gamma := by decide
theorem test_decode_dither : decode 0b00001001_000000000000000_000000000#32 = .instr .dither := by decide
theorem test_decode_run : decode 0b00010000_000000000000000_110000001#32 = .instr (.run 0x181) := by decide
theorem test_decode_srst : decode 0b01111111_000000000000000_000000000#32 = .instr .srst := by decide

/-- V-CTL-10: the illegal words. -/
theorem test_decode_illegal :
    ([0x0A000000, 0x0F000000, 0x11000000, 0x7E000000, 0x80000000, 0xFF000000].all fun w =>
        decode w == .illegal .unknownOpcode) = true ∧
      ([0x01000001, 0x09000100, 0x00000001, 0x10000200, 0x10800000, 0x7F000001].all fun w =>
        decode w == .illegal .operandBits) = true := by
  decide

/-- The host's reading of an opcode-table word. -/
theorem test_decodeTableWord : decodeTableWord 32 0x05000000 = some .sharp ∧ decodeTableWord 32 0x0A000000 = none := by
  decide

/-! ### COMPOSE (sections 2.1 to 2.3) -/

/-- V-CMP-2: 2 by 1 onto 4 by 4, with the geometry registers. -/
theorem test_compose_enlarges :
    answers (exec .compose (withSource 2 1 4 4 [0xFF0000, 0x0000FF])) (fun t =>
      pixels t == [0, 0, 0, 0, 0xFF0000, 0xC4003B, 0x3B00C4, 0x0000FF, 0xFF0000, 0xC4003B, 0x3B00C4, 0x0000FF, 0, 0, 0, 0]
        && rszDimWord t == 0x00020004 && rszOffWord t == 0x00010000 && statusWord t == 0x12) = true := by
  decide +kernel

/-- V-CMP-6: 4 by 4 onto 2 by 2, three different channels. -/
theorem test_compose_reduces :
    answers (exec .compose (withSource 4 4 2 2
      [0x00FF00, 0x0AF500, 0x14EB00, 0x1EE100, 0x28FF00, 0x32F505, 0x3CEB0A, 0x46E10F,
       0x50FF00, 0x5AF50A, 0x64EB14, 0x6EE11E, 0x78FF00, 0x82F50F, 0x8CEB1E, 0x96E12D]))
      (fun t => pixels t == [0x1BFA02, 0x2FE607, 0x67FA06, 0x7BE61E]) = true := by
  decide +kernel

/-- V-GEO-8, V-GEO-4, V-GEO-11: both branches, odd remainders. -/
theorem test_geometry :
    geometry 3 2 320 240 = ⟨320, 213, 0, 13⟩ ∧ geometry 500 1000 320 240 = ⟨120, 240, 100, 0⟩ ∧
      geometry 7 5 4 4 = ⟨4, 2, 0, 1⟩ := by
  decide

/-- V-RS-10: overshoot on the right, clamping on the left. -/
theorem test_resample : resample lanczos3 [0, 100, 200] 5 = [0, 23, 100, 177, 208] := by decide +kernel

/-- R266, U7: a kernel whose weights are all zero is refused. -/
theorem test_kernel_check :
    composeError (withSource 1 1 1 1 [0]) { params with kernel := { lanczos3 with table := [] } } = some .kernel := by
  decide

/-! ### The enhancer (section 2.4) -/

/-- V-CON-1. -/
theorem test_contrast :
    answers (exec .contrast onA) (fun t => t.mean == 134 && statusWord t == 0x22 &&
      pixels t == [0x000009, 0x15212D, 0x394551, 0x5D6975, 0x818D99, 0xA5B1BD, 0xC9D5E1, 0xEDF9FF, 0xFFFF00]) = true := by
  decide +kernel

/-- V-BRI-1; `MEAN` unchanged. -/
theorem test_bright :
    answers (exec .bright { onA with mean := 7 }) (fun t => t.mean == 7 &&
      pixels t == [0x0B1621, 0x2C3742, 0x4D5863, 0x6E7984, 0x8F9AA5, 0xB0BBC6, 0xD1DCE7, 0xF2FDFF, 0xFFFF00]) = true := by
  decide +kernel

/-- V-BRI-2: the machine configured with `P_BRIGHT_REF = MEAN`, `ref = 134`: the first and last cells, and `MEAN`. -/
theorem test_bright_mean :
    answers (configuredStep { params with brightRef := .mean } { onA with input := [.command 0x03000000] }) (fun t =>
      t.mean == 134 && t.cnv.get 0 == some 0x000813 && t.cnv.get 8 == some 0xFFFF00 && statusWord t == 0x32) = true := by
  decide +kernel

/-- V-COL-1. -/
theorem test_color :
    answers (exec .color onA) (fun t =>
      pixels t == [0x081420, 0x26323E, 0x44505C, 0x626E7A, 0x808C98, 0x9EAAB6, 0xBCC8D4, 0xDAE6F2, 0xFFFF00]) = true := by
  decide +kernel

/-- V-SHP-1. -/
theorem test_sharp :
    answers (exec .sharp onA) (fun t =>
      pixels t == [0x000610, 0x1E2832, 0x3F4953, 0x616B75, 0x828CA1, 0xA4AECC, 0xC5CFD9, 0xE7F1FF, 0xFFFF00]) = true := by
  decide +kernel

/-- V-DN-1. -/
theorem test_denoise :
    answers (exec .denoise onA) (fun t =>
      pixels t == [0x17212B, 0x313B45, 0x4C5660, 0x67717B, 0x828C93, 0x9DA697, 0xB8C2CC, 0xD3DCCD, 0xEDF329]) = true := by
  decide +kernel

/-- V-USM-1. -/
theorem test_unsharp :
    answers (exec .unsharp onA) (fun t =>
      pixels t == [0x000000, 0x000212, 0x25314A, 0x545E6F, 0x828CBA, 0xB1BCFF, 0xDFE9FF, 0xFFFFFF, 0xFFFF00]) = true := by
  decide +kernel

/-- V-USM-2: a difference equal to the threshold changes nothing. -/
theorem test_unsharp_threshold : unsharpMask 384 24 150 126 = 150 ∧ unsharpMask 384 23 150 126 = 186 := by decide

/-! ### GAMMA and DITHER (sections 2.5 and 2.6) -/

/-- V-GAM-1. -/
theorem test_gamma :
    answers (exec .gamma onA) (fun t =>
      pixels t == [0x111E2A, 0x36414C, 0x56616B, 0x747E88, 0x919AA3, 0xACB5BE, 0xC7D0D8, 0xE1E9F2, 0xFAFF00]) = true := by
  decide +kernel

/-- V-GAM-4 and V-GAM-5: a byte of the word is stored and mapped. -/
theorem test_glut :
    answers (play (canvas 1 1 [0x808007]) [wr 0x41C 0x12345678, rd 0x41C, wr 0x008 0x08000000, .engine, .engine])
      (fun t => t.resp == some (.data 0x78) && pixels t == [0x8F8F78]) = true := by
  decide +kernel

/-- V-DIT-11; `CNV` unchanged. -/
theorem test_dither :
    answers (exec .dither onA) (fun t => t.cnv == onA.cnv &&
      t.out.map Prod.snd == [0x08A4, 0x29A7, 0x4A8B, 0x6B6F, 0x8473, 0xA557, 0xC65A, 0xDF5E, 0xFFE0]) = true := by
  decide +kernel

/-- V-DIT-9: saturation, and error leaking into the border. -/
theorem test_dither_border :
    answers (exec .dither (canvas 4 2 [0xFFFFFF, 0xFFFFFF, 0, 0, 0xFFFFFF, 0xFFFFFF, 0, 0])) (fun t =>
      t.out.map Prod.snd == [0xFFFF, 0xFFFF, 0, 0, 0xFFFF, 0xFFFF, 0x0821, 0]) = true := by
  decide +kernel

/-- V-DIT-10: the two tie rules. -/
theorem test_tie_rules : quantize .halfUp .red 25600 = 13 ∧ quantize .halfEven .red 25600 = 12 := by decide

/-! ### The command mechanism and errors (sections 2.7 and 2.8) -/

/-- V-CTL-1: `NOP` from reset. -/
theorem test_nop : answers (exec .nop State.reset) (fun t => statusWord t == 0x2) = true := by decide

/-- V-CTL-2: the status after acceptance and after each engine step of `run 0x181`. -/
theorem test_run_steps :
    let s := withSource 1 1 2 1 [0xFFFFFF]
    answers (play s [wr 0x008 0x10000181]) (fun t => statusWord t == 0x01 && t.pend == 0x181) = true ∧
      answers (play s [wr 0x008 0x10000181, .engine]) (fun t => statusWord t == 0x11 && t.pend == 0x180) = true ∧
      answers (play s [wr 0x008 0x10000181, .engine, .engine]) (fun t => statusWord t == 0x81 && t.pend == 0x100) = true ∧
      answers (play s [wr 0x008 0x10000181, .engine, .engine, .engine, .engine]) (fun t => statusWord t == 0x92) = true := by
  decide +kernel

/-- V-ENH-1: the identity settings, stages 2, 3, 4, 5 and 7. -/
theorem test_run_identity :
    answers (exec (.run 0x05E) { onA with contrast := 0x100, bright := 0x100, color := 0x100, sharp := 0x100, usmAmt := 0 })
      (fun t => t.cnv == onA.cnv && t.mean == 134) = true := by
  decide +kernel

/-- V-CTL-5: a command while busy. -/
theorem test_busy_discards :
    answers (play State.reset [wr 0x008 0, wr 0x008 0x7F000000, wr 0x008 0xFFFFFFFF]) (fun t => statusWord t == 0x9) = true ∧
      answers (play State.reset [wr 0x008 0, wr 0x008 0x7F000000, .engine]) (fun t => statusWord t == 0xA) = true := by
  decide

/-- V-CTL-7: interrupt on error. -/
theorem test_interrupt :
    answers (play State.reset [wr 0x010 2, wr 0x008 0x0A000000]) (fun t => statusWord t == 0x104 && t.irq) = true ∧
      answers (play State.reset [wr 0x010 2, wr 0x008 0x0A000000, wr 0x00C 4])
        (fun t => statusWord t == 0 && !t.irq) = true := by
  decide

/-- V-CTL-9: `SRST` gives the reset values back. -/
theorem test_srst :
    answers (exec .srst { onA with contrast := 0x200, glut := [(128, 128)], srcPtr := 4, done := true, stage := 9 })
      (fun t => t == { State.reset with cnv := onA.cnv } && glutGet t.glut 128 == 143 && !t.irq) = true := by
  decide

/-- V-ERR-1, V-ERR-5 and V-ERR-6: INVALID_INPUT, BAD_DIM, DEGENERATE. -/
theorem test_stage_errors :
    answers (exec .compose State.reset) (fun t => statusWord t == 0x00010214) = true ∧
      answers (exec .contrast { State.reset with canvasW := 0x200, canvasH := 0x200 })
        (fun t => statusWord t == 0x00020324) = true ∧
      answers (exec .compose (withSource 1 8 4 4 [])) (fun t => statusWord t == 0x00010414) = true := by
  decide

/-- V-ERR-8 and V-ERR-9: a command while an error is recorded, then the acknowledgement. -/
theorem test_error_discards :
    answers (play State.reset [wr 0x008 0x01000000, .engine, wr 0x008 0x01000000])
        (fun t => statusWord t == 0x0001021C) = true ∧
      answers (play State.reset [wr 0x008 0x01000000, .engine, wr 0x008 0x01000000, wr 0x00C 4])
        (fun t => statusWord t == 0x18) = true := by
  decide

/-- V-MEM-8: the source is not wholly written. -/
theorem test_unwritten_source : faultsOn (exec .compose (withSource 2 1 4 4 [0xFFFFFF])) .src = true := by decide

/-! ### The host port (section 2.9) -/

/-- V-MEM-1: the constants. -/
theorem test_constants : idWord = 0x4C524E31 ∧ capWord params = 0x00141181 := by decide

/-- V-MEM-2 and V-MEM-3: auto-increment, the top byte dropped, wrap. -/
theorem test_source_port :
    answers (play State.reset [wr 0x040 0, wr 0x044 0x00112233, wr 0x044 0xFF445566, wr 0x040 1, rd 0x044])
        (fun t => t.resp == some (.data 0x00445566) && t.srcPtr == 2) = true ∧
      answers (play State.reset [wr 0x040 0xABFFFFFF, wr 0x044 0x010203])
        (fun t => t.srcPtr == 0 && t.src == []) = true := by
  decide

/-- V-MEM-4: the last cell of `CNV` exists, the next does not. -/
theorem test_canvas_port :
    answers (play State.reset [wr 0x048 0x1FFFF, wr 0x04C 0xABCDEF, wr 0x048 0x1FFFF, rd 0x04C])
        (fun t => t.resp == some (.data 0xABCDEF)) = true ∧
      answers (play State.reset [wr 0x048 0x20000, rd 0x04C])
        (fun t => t.resp == some (.data 0) && t.cnvPtr == 0x20001 && t.freeCount == 0) = true := by
  decide

/-- V-MEM-5 and V-MEM-7: `OUT_DATA` ignores writes; a malformed read. -/
theorem test_out_port :
    answers (play State.reset [wr 0x050 5, wr 0x054 0x1234]) (fun t => t.outPtr == 5 && !t.ovr) = true ∧
      answers (play State.reset [rd 0x00E]) (fun t => t.resp == some .busError && { t with resp := none } == State.reset)
        = true := by
  decide

/-- R300, R302: a hardware reset in the middle of `GAMMA` leaves the canvas cells unwritten. -/
theorem test_hard_reset :
    answers (play onA [wr 0x048 9, wr 0x04C 5, wr 0x008 0x08000000, .hardReset])
      (fun t => t.cnv == [(9, 5)] && { t with cnv := [] } == State.reset) = true := by
  decide

/-- R55, U1: after a hardware reset of an idle block no cell is written, so a stage that reads the canvas faults and a
host read draws a free value. -/
theorem test_hard_reset_idle :
    answers (play onA [wr 0x044 7, .hardReset]) (fun t => t == State.reset) = true ∧
      faultsOn (play onA [.hardReset, wr 0x01C 0x00030003, wr 0x008 0x08000000, .engine]) .cnv = true ∧
      answers (play onA [.hardReset, rd 0x04C]) (fun t => t.freeCount == 1) = true := by
  decide

/-- A step takes the command word that `withFetchWord` places. -/
theorem test_withFetchWord :
    answers (step (State.reset.withFetchWord 32 0x7F000000)) (fun t => t == State.reset) = true := by decide

/-- R113: the expansion of `loadcnv 1, 1, p` and of an entry of `glut_identity`. -/
theorem test_script :
    Script.loadcnv 1 1 [0x808007] =
        [.turn (wr 0x01C 0x00010001), .turn (wr 0x048 0), .turn (wr 0x04C 0x00808007)] ∧
      Script.glutIdentity[255]? = some (.turn (wr 0x7FC 0xFF)) ∧
      Script.pipeline = [.turn (wr 0x008 0x100001FF)] := by
  decide

/-- R113: `wait` on a busy block reads `STATUS`, lets the engine step and polls again; on an idle block it is over. -/
theorem test_wait :
    answers (step { accept State.reset 0 0 with input := [Script.wait] }) (fun t =>
        t.resp == some (.data 1) && t.input == [.turn .engine, .wait]) = true ∧
      answers (step { State.reset with input := [Script.wait] }) (fun t =>
        t.resp == some (.data 0) && t.input == []) = true := by
  decide

/-- R6: the decided parameters are a configuration the spec gives a meaning; a pointer past its register and another
factor format are not. -/
theorem test_params_legal :
    paramsLegal params = true ∧ paramsLegal { params with ptrBits := 33 } = false ∧
      paramsLegal { params with ffrac := 7 } = false := by
  decide +kernel

/-- R6, R75: pointers of 25 bits reach a cell past `2^24`, keep bit 24 and wrap at `2^25`. -/
theorem test_wide_pointer :
    let p : Params := { params with srcPixels := 2 ^ 25, ptrBits := 25 }
    paramsLegal p = true ∧
      answers (configuredStep p { State.reset with srcPtr := 0x1000005, input := [.turn (wr 0x044 7)] })
        (fun t => t.srcPtr == 0x1000006 && t.src == [(0x1000005, 7)]) = true ∧
      answers (configuredStep p { State.reset with srcPtr := 0x1FFFFFF, input := [.turn (wr 0x044 7)] })
        (fun t => t.srcPtr == 0 && t.src == [(0x1FFFFFF, 7)]) = true ∧
      answers (configuredStep p { State.reset with input := [.turn (wr 0x040 0xFF000005)] })
        (fun t => t.srcPtr == 0x1000005) = true := by
  decide +kernel

/-- R22, R36: a configuration with smaller memories and pointers has its own BAD_DIM and its own wrap. -/
theorem test_configured_sizes :
    let p : Params := { params with canvasPixels := 4, srcPixels := 16, dimBits := 9, ptrBits := 4 }
    paramsLegal p = true ∧
      answers (configuredStep p { canvas 5 1 [] with input := [.command 0x02000000] })
        (fun t => statusWord t == 0x00020324) = true ∧
      answers (configuredStep p { State.reset with srcPtr := 15, input := [.turn (wr 0x044 7)] })
        (fun t => t.srcPtr == 0 && t.src == [(15, 7)]) = true := by
  decide +kernel

/-! ### Witnesses: for every obligation with hypotheses, a state and operands that meet them -/

/-- A result is a next state. -/
def nextOf : Result → Option State
  | .next t => some t
  | .fault _ => none
  | .refused _ => none

/-- The smallest canvas and source, ready for every stage. -/
def small : State := { withSource 1 1 1 1 [0x123456] with cnv := [(0, 0x123456)] }

/-- A `GAMMA` command accepted, not yet run. -/
def gammaPending : State := accept onA 0x08000000 0x080

/-- An error is recorded. -/
def errored : State := { State.reset with err := true, errCode := 1 }

theorem witness_DecodeInvertsEncode :
    (Instr.run 0).wellFormed = true ∧ (Instr.run 0x1FF).wellFormed = true ∧ Instr.srst.wellFormed = true := by decide

theorem witness_DecodeFollowsOpcodeMap :
    (∃ row ∈ opcodeMap, 0x100001FF#32 &&& row.mask = row.pattern) ∧
      (∀ row ∈ opcodeMap, 0x10000200#32 &&& row.mask ≠ row.pattern) := by
  refine ⟨⟨_, .tail _ (.tail _ (.tail _ (.tail _ (.tail _ (.tail _ (.tail _ (.tail _ (.tail _ (.tail _ (.head _)))))))))),
    by decide⟩, ?_⟩
  simp [opcodeMap]

theorem witness_IllegalWordsAreNamed :
    decode 0x0A000000 = .illegal .unknownOpcode ∧ decode 0x09000001 = .illegal .operandBits ∧
      decode 0x10000200 = .illegal .operandBits ∧ decode 0x100001FF = .instr (.run 0x1FF) := by decide

/-- A command, an illegal word, a turn and a poll as the next entry; blocks that are ready, hold an error, are busy. -/
theorem witness_StepRunsDecodedCommand :
    (({ State.reset with input := [.command 0x08000000] } : State).input = .command 0x08000000 :: [] ∧
        decode 0x08000000 = .instr .gamma) ∧
      (({ errored with input := [.command 0x0A000000] } : State).input = .command 0x0A000000 :: [] ∧
        decode 0x0A000000 = .illegal .unknownOpcode ∧ errored.err = true ∧ gammaPending.busy = true ∧
        State.reset.ready) ∧
      ({ gammaPending with input := [.turn .engine] } : State).input = .turn .engine :: [] ∧
      ({ gammaPending with input := [.wait] } : State).input = .wait :: [] := by decide

theorem witness_StepWithoutInputIsTheEngine : State.reset.input = [] ∧ gammaPending.input = [] := by decide

theorem witness_CommandIsWriteThenEngineSteps :
    (Instr.run 0x1FF).wellFormed = true ∧ Instr.srst.wellFormed = true ∧ errored.busy = false := by decide

theorem witness_CmdWriteHasFourCases :
    gammaPending.busy = true ∧ (errored.busy = false ∧ errored.err = true ∧ (0x01000000 : Word) ≠ 0x7F000000) ∧
      (State.reset.busy = false ∧ State.reset.err = false ∧ decode 0x7F000001 = .illegal .operandBits) ∧
      (errored.busy = false ∧ (0x7F000000 : Word) = 0x7F000000) ∧
      (State.reset.busy = false ∧ State.reset.err = false ∧ decode 0x10000000 = .instr (.run 0) ∧
        Instr.run 0 ≠ .srst) := by decide

theorem witness_BusyDiscardsEveryCommand : gammaPending.busy = true := by decide

theorem witness_ErrorDiscardsAllButSrst :
    errored.busy = false ∧ errored.err = true ∧ (0x7F000001 : Word) ≠ 0x7F000000 ∧ Instr.nop ≠ .srst := by decide

theorem witness_EngineStepCompletes : (accept { State.reset with doneIe := true } 0 0).pend = 0 ∧
    (accept { State.reset with doneIe := true } 0 0).doneIe = true := by decide

/-- The lowest stage is 8 of 8 and 9 on the canvas A, which finishes, and 1 of all, which raises an error. -/
theorem witness_EngineStepTakesLowestStage :
    ((accept onA 0 0x180).pend.getLsbD Stage.gamma.bit = true ∧
        (∀ j < Stage.gamma.bit, (accept onA 0 0x180).pend.getLsbD j = false) ∧
        ∃ t, runStage .gamma { accept onA 0 0x180 with stage := BitVec.ofNat 4 (Stage.gamma.bit + 1) } = .finished t) ∧
      ((accept onA 0 0x1FF).pend.getLsbD Stage.compose.bit = true ∧
        (∀ j < Stage.compose.bit, (accept onA 0 0x1FF).pend.getLsbD j = false) ∧
        ∃ code, runStage .compose { accept onA 0 0x1FF with stage := BitVec.ofNat 4 (Stage.compose.bit + 1) } =
          .error code) :=
  ⟨⟨by decide, by decide, _, rfl⟩, by decide, by decide, .invalidInput, rfl⟩

theorem witness_NopOnlyCompletes : State.reset.ready := by decide

theorem witness_ComposeResizesAndCenters : small.ready ∧ composeLegal small ∧ small.sourceWritten := by
  refine ⟨by decide, ?_, by decide⟩
  unfold composeLegal
  decide +kernel

/-- The four pre-checks at their bounds: no width or no height, one cell too many in the canvas or the source, one
resized dimension 0, and a kernel whose weights are all 0. For the decided kernel the spec found no dimensions that
fail the fourth (R131, R141), so that clause has the hypotheses of the last part but no witness. -/
theorem witness_ComposeErrorsInOrder :
    State.reset.ready ∧ (withSource 0 5 4 4 []).srcWidth = 0 ∧ (withSource 5 0 4 4 []).srcHeight = 0 ∧
      ¬ canvasUsable (withSource 1 1 3 43691 []) ∧
      1048576 < (withSource 17 61681 4 4 []).srcWidth * (withSource 17 61681 4 4 []).srcHeight ∧
      (canvasUsable (withSource 1 8 4 4 []) ∧ newWidth (withSource 1 8 4 4 []) = 0) ∧
      (canvasUsable (withSource 8 1 4 4 []) ∧ newHeight (withSource 8 1 4 4 []) = 0) ∧
      (canvasUsable small ∧ newWidth small ≠ 0 ∧ newHeight small ≠ 0 ∧
        ∃ xx < newWidth small, kernelSum { lanczos3 with table := [] } small.srcWidth (newWidth small) xx ≤ 0) := by
  unfold canvasUsable
  decide

/-- For the seven canvas stages and `DITHER`: the smallest usable canvas, a canvas of no cells, and a canvas of one
cell more than there are. -/
theorem witness_canvas_commands :
    (small.ready ∧ canvasUsable small ∧ small.canvasWritten) ∧
      ((canvas 0 1 []).ready ∧ ¬ canvasUsable (canvas 0 1 [])) ∧ ¬ canvasUsable (canvas 1 0 []) ∧
      ¬ canvasUsable (canvas 3 43691 []) := by
  unfold canvasUsable
  decide

theorem witness_ContrastBlendsAgainstTheMean :
    onA.ready ∧ canvasUsable onA ∧ onA.canvasWritten ∧ ¬ canvasUsable (canvas 3 43691 []) := by
  unfold canvasUsable
  decide

theorem witness_BrightScalesEveryChannel :
    onA.ready ∧ canvasUsable onA ∧ onA.canvasWritten ∧ ¬ canvasUsable (canvas 3 43691 []) := by
  unfold canvasUsable
  decide

theorem witness_ColorBlendsAgainstTheLuminance :
    onA.ready ∧ canvasUsable onA ∧ onA.canvasWritten ∧ ¬ canvasUsable (canvas 3 43691 []) := by
  unfold canvasUsable
  decide

theorem witness_SharpBlendsAgainstTheSmoothedCanvas :
    onA.ready ∧ canvasUsable onA ∧ onA.canvasWritten ∧ ¬ canvasUsable (canvas 3 43691 []) := by
  unfold canvasUsable
  decide

theorem witness_DenoiseBlursTheCanvas :
    onA.ready ∧ canvasUsable onA ∧ onA.canvasWritten ∧ ¬ canvasUsable (canvas 3 43691 []) := by
  unfold canvasUsable
  decide

theorem witness_UnsharpAmplifiesTheDifference :
    onA.ready ∧ canvasUsable onA ∧ onA.canvasWritten ∧ ¬ canvasUsable (canvas 3 43691 []) := by
  unfold canvasUsable
  decide

theorem witness_GammaMapsEveryChannel :
    onA.ready ∧ canvasUsable onA ∧ onA.canvasWritten ∧ ¬ canvasUsable (canvas 3 43691 []) := by
  unfold canvasUsable
  decide

theorem witness_DitherDiffusesTheError :
    onA.ready ∧ canvasUsable onA ∧ onA.canvasWritten ∧ ¬ canvasUsable (canvas 3 43691 []) := by
  unfold canvasUsable
  decide

theorem witness_RunIsItsStagesInOrder :
    onA.ready ∧ operandReserved 0x1FF = 0 ∧ operandMask 0x1FF ≠ 0 ∧ operandMask 0x001 ≠ 0 ∧ operandReserved 0 = 0 ∧
      operandMask 0 = 0 := by decide

/-- With `COMPOSE` selected, without it, `DITHER` alone, and with no stage. -/
theorem witness_RunCompletesOnALoadedImage :
    (small.ready ∧ operandReserved 0x1FF = 0 ∧ canvasUsable small ∧ (operandMask 0x1FF).getLsbD 0 = true ∧
        composeLegal small ∧ small.sourceWritten ∧ (operandMask 0x1FF).getLsbD Stage.dither.bit = true) ∧
      (onA.ready ∧ operandReserved 0x0FE = 0 ∧ canvasUsable onA ∧ (operandMask 0x0FE).getLsbD 0 = false ∧
        onA.canvasWritten ∧ (operandMask 0x0FE).getLsbD 8 = false) ∧
      (operandMask 0x100 &&& 0x0FF = 0 ∧ operandMask 0 &&& 0x0FF = 0) := by
  unfold canvasUsable composeLegal
  decide +kernel

theorem witness_RunWithReservedBitsIsIllegal :
    operandReserved 0x000200 ≠ 0 ∧ operandReserved 0x8001FF ≠ 0 ∧ State.reset.ready := by decide

theorem witness_SrstRestoresResetValues :
    onA.busy = false ∧ (errored.busy = false ∧ errored.err = true) ∧ gammaPending.busy = true := by decide

theorem witness_SingleStageEqualsRun : onA.ready := by decide

/-- An unwritten last canvas cell, an unwritten source, and each pointer at the last cell of an unwritten memory. -/
theorem witness_UnwrittenCellsStopStagesNotReads :
    ((canvas 1 2 [0]).ready ∧ canvasUsable (canvas 1 2 [0]) ∧ ¬ (canvas 1 2 [0]).canvasWritten ∧
        Stage.gamma ≠ .compose) ∧
      ((withSource 1 1 1 1 []).ready ∧ composeLegal (withSource 1 1 1 1 []) ∧
        ¬ (withSource 1 1 1 1 []).sourceWritten) ∧
      (let s : State := { State.reset with srcPtr := 0x0FFFFF, cnvPtr := 0x01FFFF, outPtr := 0x01FFFF }
       s.busy = false ∧ ({ s with err := true, errCode := 1 } : State).busy = false ∧ s.srcPtr.toNat < 1048576 ∧ s.src.get s.srcPtr.toNat = none ∧ s.cnvPtr.toNat < 131072 ∧
         s.cnv.get s.cnvPtr.toNat = none ∧ s.outPtr.toNat < 131072 ∧ s.out.get s.outPtr.toNat = none) := by
  unfold canvasUsable composeLegal
  decide +kernel

theorem witness_ErrorsArePrecise :
    ∃ t, (accept State.reset 0 1).err = false ∧ engineStep (accept State.reset 0 1) = .next t ∧ t.err = true :=
  ⟨_, rfl, rfl, rfl⟩

theorem witness_IllegalWordRecordsAnError :
    State.reset.ready ∧ decode 0x7F000001 = .illegal .operandBits := by decide

theorem witness_NoSecondErrorBeforeAcknowledgement :
    ∃ t, errored.inv = true ∧ errored.err = true ∧ step errored = .next t := ⟨_, by decide, rfl, rfl⟩

theorem witness_StatusWriteClearsNamedFlags : (accept State.reset 0 0).pend = 0 := by decide

theorem witness_OperandRegistersReadBack : State.reset.busy = false := by decide

/-- The first and last offsets of each clause's ranges, and a busy state. -/
theorem witness_BusyBlocksHostAccess :
    gammaPending.busy = true ∧
      ([0x018, 0x030, 0x040, 0x050, 0x400, 0x7FC, 0x008, 0x044, 0x04C, 0x054, 0x000, 0x03C, 0x00C, 0x010, 0x014, 0x058,
        0x3FC, 0x800, 0xFFC] : List Offset).all (fun a => a.toNat % 4 == 0) = true := by decide

theorem witness_MalformedTransfersChangeNothing :
    Width.byte ≠ .word ∧ Width.wider ≠ .word ∧ (0x001 : Offset).toNat % 4 ≠ 0 ∧ (0xFFF : Offset).toNat % 4 ≠ 0 := by
  decide

theorem witness_ReservedOffsetsReadZero :
    ([0x014, 0x058, 0x3FC, 0x800, 0xFFC] : List Offset).all (fun a => a.toNat % 4 == 0 &&
      decide (a.toNat = 0x014 ∨ (0x058 ≤ a.toNat ∧ a.toNat < 0x400) ∨ 0x800 ≤ a.toNat)) = true := by decide

/-- The last cell that exists, written, and the first index that does not. -/
theorem witness_SrcPortStoresAndAdvances :
    let s : State := { State.reset with srcPtr := 0x0FFFFF, src := [(0x0FFFFF, 5)] }
    (s.busy = false ∧ (pointerOf s.srcPtr).toNat < 1048576 ∧ s.src.get (pointerOf s.srcPtr).toNat = some 5) ∧
      1048576 ≤ (pointerOf ({ s with srcPtr := 0x100000 } : State).srcPtr).toNat := by decide

theorem witness_CnvPortStoresAndAdvances :
    let s : State := { State.reset with cnvPtr := 0x01FFFF, cnv := [(0x01FFFF, 5)] }
    (s.busy = false ∧ (pointerOf s.cnvPtr).toNat < 131072 ∧ s.cnv.get (pointerOf s.cnvPtr).toNat = some 5) ∧
      131072 ≤ (pointerOf ({ s with cnvPtr := 0x020000 } : State).cnvPtr).toNat := by decide

theorem witness_OutPortReadsAndAdvances :
    let s : State := { State.reset with outPtr := 0x01FFFF, out := [(0x01FFFF, 5)] }
    (s.busy = false ∧ (pointerOf s.outPtr).toNat < 131072 ∧ s.out.get (pointerOf s.outPtr).toNat = some 5) ∧
      131072 ≤ (pointerOf ({ s with outPtr := 0x020000 } : State).outPtr).toNat := by decide

theorem witness_GlutApertureStoresOneByte : State.reset.busy = false ∧ 0 < 256 ∧ 255 < 256 := by decide

/-- Idle; busy with nothing pending; busy in stages 8 and 9 that write; busy in stages 2 and 9 that raise an error. -/
theorem witness_HardResetAbandonsTheCommand :
    onA.busy = false ∧ ((accept onA 0 0).busy = true ∧ (accept onA 0 0).pend = 0) ∧
      (gammaPending.busy = true ∧ gammaPending.pend.getLsbD Stage.gamma.bit = true ∧
        (∀ j < Stage.gamma.bit, gammaPending.pend.getLsbD j = false) ∧
        ∀ code, runStage .gamma gammaPending ≠ .error code) ∧
      ((accept onA 0 0x100).pend.getLsbD Stage.dither.bit = true ∧
        (∀ j < Stage.dither.bit, (accept onA 0 0x100).pend.getLsbD j = false) ∧
        ∀ code, runStage .dither (accept onA 0 0x100) ≠ .error code) ∧
      (∃ code, runStage .contrast (accept (canvas 0 0 []) 0 0x102) = .error code) ∧
      (∃ code, runStage .dither (accept (canvas 0 0 []) 0 0x100) = .error code) :=
  ⟨rfl, ⟨rfl, rfl⟩, ⟨rfl, rfl, by decide, fun _ h => by cases h⟩, ⟨rfl, by decide, fun _ h => by cases h⟩, ⟨.badDim, rfl⟩,
    ⟨.badDim, rfl⟩⟩

theorem witness_EveryStepKeepsTheInvariant :
    ∃ t, gammaPending.inv = true ∧ step gammaPending = .next t := ⟨_, by decide, rfl⟩

theorem witness_HostCannotDisturbARunningCommand :
    ∃ t u, gammaPending.inv = true ∧ gammaPending.busy = true ∧ wr 0x020 5 ≠ .engine ∧ wr 0x020 5 ≠ .hardReset ∧
      takeTurn gammaPending (wr 0x020 5) = .next t ∧ engineRun 2 gammaPending = .next u :=
  ⟨_, _, by decide, rfl, by decide, by decide, rfl, rfl⟩

theorem witness_DataFlowsForward :
    Stage.gamma ≠ .dither ∧ Stage.gamma ≠ .compose ∧
      ∃ t u, exec .dither small = .next t ∧ exec .dither { small with out := [(0, 7)] } = .next u ∧ t.done = true ∧
        small.ready :=
  ⟨by decide, by decide, _, _, rfl, rfl, rfl, by decide⟩

theorem witness_CommandsKeepOperandsAndSource : ∃ t, Instr.gamma ≠ .srst ∧ exec .gamma small = .next t :=
  ⟨_, by decide, rfl⟩

theorem witness_GeometryFitsTheCanvas : (1 : Nat) ≠ 0 ∧ (8 : Nat) ≠ 0 := by decide

/-- A line, and entries at the bounds of each range of the table. -/
theorem witness_ResamplerCopiesEqualSizes :
    (∀ v ∈ ([0, 255, 128] : List Int), 0 ≤ v ∧ v ≤ 255) ∧ kernelTable[1]? = some 16377 ∧ kernelTable[63]? = some 216 ∧
      kernelTable[65]? = some (-207) ∧ kernelTable[127]? = some (-54) ∧ kernelTable[129]? = some 52 ∧
      kernelTable[190]? = some 2 := by
  decide

theorem witness_ResamplerKeepsFlatLines :
    (0 : Int) ≤ 255 ∧ (255 : Int) ≤ 255 ∧ axisPositive lanczos3 3 5 = true ∧ axisPositive lanczos3 5 3 = true := by
  decide +kernel

theorem witness_QuantizerBoundsAndIdempotence :
    (0 : Int) ≤ 65280 ∧ (65280 : Int) ≤ 65280 ∧ (0 : Int) ≤ topCode .green ∧ topCode .green ≤ topCode .green := by decide

theorem witness_BlendInterpolates : (0 : Int) ≤ 0 ∧ (255 : Int) ≤ 255 := by decide

theorem witness_LuminanceOfGrayIsItsValue :
    chan 0x7F7F7F .red = chan 0x7F7F7F .green ∧ chan 0x7F7F7F .green = chan 0x7F7F7F .blue := by decide

theorem witness_MemoryReadAfterWrite :
    Mem.wf 131072 [(0, 1#24), (0x1FFFF, 2#24)] = true ∧ 0x1FFFF < 131072 := by decide

end Sys2Proof.Tests
end

section
/-! PROOFS. The host port by register: the offsets of the map, and the registers a write never reaches (R71, R28 to R35). -/

namespace Sys2Proof.Proofs

open Sys2Proof Sys2Proof.Machine

/-! ### The rows of the map that the statements about registers name -/

theorem regAt_id : regAt 0x000 = some .id := rfl
theorem regAt_cap : regAt 0x004 = some .cap := rfl
theorem regAt_cmd : regAt 0x008 = some .cmd := rfl
theorem regAt_status : regAt 0x00C = some .status := rfl
theorem regAt_intEn : regAt 0x010 = some .intEn := rfl
theorem regAt_srcDim : regAt 0x018 = some .srcDim := rfl
theorem regAt_cnvDim : regAt 0x01C = some .cnvDim := rfl
theorem regAt_contrast : regAt 0x020 = some .contrast := rfl
theorem regAt_bright : regAt 0x024 = some .bright := rfl
theorem regAt_color : regAt 0x028 = some .color := rfl
theorem regAt_sharp : regAt 0x02C = some .sharp := rfl
theorem regAt_usm : regAt 0x030 = some .usm := rfl
theorem regAt_rszDim : regAt 0x034 = some .rszDim := rfl
theorem regAt_rszOff : regAt 0x038 = some .rszOff := rfl
theorem regAt_mean : regAt 0x03C = some .mean := rfl

/-- The registers a host read returns at any time and leaves the whole state as it is: all but the data ports and
`GLUT` (R80, R82). -/
def plainRead : PortReg → Bool
  | .srcData | .cnvData | .outData | .glut _ => false
  | _ => true

/-- The constants, the result registers, `OUT_DATA` and the reserved offsets: a write is ignored (R28 to R35, R71,
R77). -/
def ignoresWrites : PortReg → Bool
  | .id | .cap | .rszDim | .rszOff | .mean | .outData | .reserved => true
  | _ => false

theorem readReg_state_of_plainRead (s : State) {r : PortReg} (h : plainRead r = true) : (readReg s r).2 = s := by
  cases r <;> first | rfl | cases h

theorem writeReg_of_ignoresWrites (s : State) (d : Word) {r : PortReg} (h : ignoresWrites r = true) :
    writeReg s d r = s := by
  cases r <;> first | rfl | cases h

/-- A word read of a register without side effects returns its word and leaves the state alone. -/
theorem hostRead_of_plainRead (s : State) {a : Offset} {r : PortReg} (ha : regAt a = some r)
    (h : plainRead r = true) : hostRead s .word a = (.data (readReg s r).1, s) := by
  simp only [hostRead, ha, readReg_state_of_plainRead s h]

/-- A word write of a register that ignores writes changes nothing. -/
theorem hostWrite_of_ignoresWrites (s : State) (d : Word) {a : Offset} {r : PortReg} (ha : regAt a = some r)
    (h : ignoresWrites r = true) : hostWrite s .word a d = s := by
  simp only [hostWrite, ha, writeReg_of_ignoresWrites s d h]

/-- `CAP` at the decided parameters (R29): `log2` of the two sizes is 20 and 17, the other fields are the kernel's code
and the fraction bits. -/
theorem capWord_params : capWord params = 0x00141181 := rfl

/-- Settles O38: each of the registers reads without a side effect and ignores writes (R28, R29, R33 to R35). -/
theorem readOnlyRegisters : Obligations.ReadOnlyRegisters := by
  intro s d
  have hcap : hostRead s .word 0x004 = (.data 0x00141181, s) := by
    rw [← capWord_params]; exact hostRead_of_plainRead s regAt_cap rfl
  exact ⟨hostRead_of_plainRead s regAt_id rfl, hcap, hostRead_of_plainRead s regAt_cmd rfl,
    hostRead_of_plainRead s regAt_rszDim rfl, hostRead_of_plainRead s regAt_rszOff rfl,
    hostRead_of_plainRead s regAt_mean rfl,
    hostWrite_of_ignoresWrites s d regAt_id rfl, hostWrite_of_ignoresWrites s d regAt_cap rfl,
    hostWrite_of_ignoresWrites s d regAt_rszDim rfl, hostWrite_of_ignoresWrites s d regAt_rszOff rfl,
    hostWrite_of_ignoresWrites s d regAt_mean rfl⟩

end Sys2Proof.Proofs
end

section
/-! PROOFS. The state after reset (R54). -/

namespace Sys2Proof.Proofs

open Sys2Proof Sys2Proof.Machine

/-- Every entry of `GAMMA12` is a byte (R50). -/
theorem gamma12_lt : ∀ v < 256, gamma12.getD v 0 < 256 := by decide +kernel

/-- An entry that nothing has written reads as the reset table's (R48, R54). -/
theorem glutGet_nil_toNat {v : Nat} (h : v < 256) : (glutGet [] v).toNat = gamma12.getD v 0 := by
  show (BitVec.ofNat 8 (gamma12.getD v 0)).toNat = _
  rw [BitVec.toNat_ofNat, Nat.mod_eq_of_lt (gamma12_lt v h)]

/-- Settles O46: the read-only registers by O38, the others by the read of the register the map selects, `GLUT` by the
reset table. -/
theorem resetValues : Obligations.ResetValues := by
  obtain ⟨hid, hcap, -, hdim, hoff, hmean, -⟩ := readOnlyRegisters State.reset 0
  have read {a : Offset} {r : PortReg} (ha : regAt a = some r) (h : plainRead r = true) :=
    hostRead_of_plainRead State.reset ha h
  exact ⟨hid, hcap, read regAt_status rfl, read regAt_intEn rfl, read regAt_srcDim rfl, read regAt_cnvDim rfl,
    read regAt_contrast rfl, read regAt_bright rfl, read regAt_color rfl, read regAt_sharp rfl, read regAt_usm rfl,
    hdim, hoff, hmean, rfl, rfl, rfl, rfl, rfl, rfl, fun _ hv => glutGet_nil_toNat hv, fun _ => ⟨rfl, rfl, rfl⟩⟩

end Sys2Proof.Proofs
end

section
/-! PROOFS. The hardware reset: which command is abandoned, and what it could have written (R300, R302, U2). -/

namespace Sys2Proof.Proofs

open Sys2Proof Sys2Proof.Machine

/-- `COMPOSE` raises an error exactly when one of its pre-checks fails (R131). -/
theorem runStage_compose_error_iff (s : State) (code : ErrorCode) :
    runStage .compose s = .error code ↔ composeError s = some code := by
  refine ⟨fun h => ?_, fun h => by simp only [runStage, stageCompose, h]⟩
  rcases runStage_error h with ⟨_, he⟩ | ⟨hne, _⟩
  · exact he
  · exact absurd rfl hne

/-- A stage over the canvas raises an error exactly on unusable dimensions (R160). -/
theorem onCanvas_error_iff (s : State) (write : Raster → State) :
    (∃ code, onCanvas s write = .error code) ↔ s.canvasLegal = false := by
  rcases onCanvas_cases s write with ⟨hl, e⟩ | ⟨hl, _, e⟩ | ⟨hl, _, e⟩ <;> simp [e, hl]

/-- The hardware reset's test of a stage is the stage's own pre-checks (R269). -/
theorem stageWrites_eq_false_iff (s : State) (st : Stage) :
    stageWrites s st = false ↔ ∃ code, runStage st s = .error code := by
  cases st
  case compose =>
    simp only [runStage_compose_error_iff, stageWrites, Option.isNone_eq_false_iff, Option.isSome_iff_exists]
  all_goals exact (onCanvas_error_iff s _).symm

theorem stageWrites_eq_true_iff (s : State) (st : Stage) :
    stageWrites s st = true ↔ ∀ code, runStage st s ≠ .error code := by
  rw [← Bool.not_eq_false, stageWrites_eq_false_iff, not_exists]

/-- A stage that would only raise an error leaves nothing to abandon. -/
theorem abandonStage_of_error {s : State} {st : Stage} (h : ∃ code, runStage st s = .error code) :
    abandonStage s st = s := by
  simp [abandonStage, (stageWrites_eq_false_iff s st).2 h]

/-- Abandoning `DITHER` unwrites `OUT[0 .. W*H-1]` (R302). -/
theorem abandonStage_dither {s : State} (h : ∀ code, runStage .dither s ≠ .error code) :
    abandonStage s .dither = { s with out := s.out.dropBelow s.canvasCells } := by
  simp only [abandonStage, (stageWrites_eq_true_iff s .dither).2 h, if_true]

/-- Abandoning a stage of 1 to 8 unwrites `CNV[0 .. W*H-1]` (R302). -/
theorem abandonStage_canvas {s : State} {st : Stage} (hst : st ≠ .dither)
    (h : ∀ code, runStage st s ≠ .error code) :
    abandonStage s st = { s with cnv := s.cnv.dropBelow s.canvasCells } := by
  simp only [abandonStage, (stageWrites_eq_true_iff s st).2 h, if_true]
  cases st <;> first | rfl | exact absurd rfl hst

/-- The three memories and the registers are all that a hardware reset changes, and the registers take their reset
values (R300). -/
theorem hardReset_frame (s : State) :
    hardReset s =
      { State.reset with
        src := (hardReset s).src, cnv := (hardReset s).cnv, out := (hardReset s).out,
        input := s.input, resp := s.resp, freeCount := s.freeCount } := by
  rcases hardReset_cases s with ⟨_, e⟩ | ⟨_, e⟩ | ⟨_, _, e⟩ | ⟨_, _, e⟩ <;> rw [e] <;> rfl

theorem hardReset_idle {s : State} (h : s.busy = false) : hardReset s = resetRegisters (forgetRasters s) := by
  simp [hardReset, h]

theorem hardReset_busy {s : State} (h : s.busy = true) : hardReset s = resetRegisters (abandonCommand s) := by
  simp [hardReset, h]

theorem hardReset_nothing_pending {s : State} (h : s.busy = true) (hp : s.pend = 0) :
    hardReset s = resetRegisters s := by
  rw [hardReset_busy h, abandonCommand, hp, lowestPending_zero]

/-- The stage abandoned is the lowest pending one (log 10). -/
theorem hardReset_pending {s : State} {st : Stage} (h : s.busy = true) (hbit : s.pend.getLsbD st.bit = true)
    (hlow : ∀ j < st.bit, s.pend.getLsbD j = false) : hardReset s = resetRegisters (abandonStage s st) := by
  rw [hardReset_busy h, abandonCommand, lowestPending_eq_some.2 ⟨hbit, hlow⟩]

theorem hardReset_src_busy {s : State} (h : s.busy = true) : (hardReset s).src = s.src := by
  rcases hardReset_cases s with ⟨hb, _⟩ | ⟨_, e⟩ | ⟨_, _, e⟩ | ⟨_, _, e⟩
  · simp [h] at hb
  all_goals rw [e, resetRegisters_src]

/-- What a hardware reset leaves of `CNV` and `OUT` when it abandons a stage of 1 to 8. -/
theorem resetRegisters_abandonStage_canvas (s : State) {st : Stage} (hst : st ≠ .dither) :
    (resetRegisters (abandonStage s st)).out = s.out ∧
      ((∀ code, runStage st s ≠ .error code) →
        ∀ k, (resetRegisters (abandonStage s st)).cnv.get k = if k < s.canvasCells then none else s.cnv.get k) ∧
      ((∃ code, runStage st s = .error code) → (resetRegisters (abandonStage s st)).cnv = s.cnv) := by
  by_cases he : ∃ code, runStage st s = .error code
  · rw [abandonStage_of_error he]
    exact ⟨rfl, fun hn => absurd he (not_exists.2 hn), fun _ => rfl⟩
  · rw [abandonStage_canvas hst (not_exists.1 he)]
    exact ⟨rfl, fun _ k => Mem.get_dropBelow s.cnv s.canvasCells k, fun h => absurd h he⟩

/-- What a hardware reset leaves of `CNV` and `OUT` when it abandons `DITHER`. -/
theorem resetRegisters_abandonStage_dither (s : State) :
    (resetRegisters (abandonStage s .dither)).cnv = s.cnv ∧
      ((∀ code, runStage .dither s ≠ .error code) →
        ∀ k, (resetRegisters (abandonStage s .dither)).out.get k = if k < s.canvasCells then none else s.out.get k) ∧
      ((∃ code, runStage .dither s = .error code) → (resetRegisters (abandonStage s .dither)).out = s.out) := by
  by_cases he : ∃ code, runStage .dither s = .error code
  · rw [abandonStage_of_error he]
    exact ⟨rfl, fun hn => absurd he (not_exists.2 hn), fun _ => rfl⟩
  · rw [abandonStage_dither (not_exists.1 he)]
    exact ⟨rfl, fun _ k => Mem.get_dropBelow s.out s.canvasCells k, fun h => absurd h he⟩

/-- Settles O48, by the three kinds of reset: of an idle block, of a busy one with nothing pending, and of a busy one in
its lowest pending stage. -/
theorem hardResetAbandonsTheCommand : Obligations.HardResetAbandonsTheCommand := by
  intro s
  refine ⟨(hardReset s).src, (hardReset s).cnv, (hardReset s).out, congrArg Host.Outcome.next (hardReset_frame s),
    fun hidle => ?_, hardReset_src_busy, fun hbusy hp => ?_, fun hbusy st hbit hlow => ?_⟩
  · rw [hardReset_idle hidle]
    exact ⟨rfl, rfl, rfl⟩
  · rw [hardReset_nothing_pending hbusy hp]
    exact ⟨rfl, rfl⟩
  · rw [hardReset_pending hbusy hbit hlow]
    refine ⟨fun hst => resetRegisters_abandonStage_canvas s hst, fun hst => ?_⟩
    subst hst
    exact resetRegisters_abandonStage_dither s

end Sys2Proof.Proofs
end

section
/-! PROOFS. The resampler at equal sizes (R49, R134, R135, R140 property 1). -/

namespace Sys2Proof.Proofs

open Sys2Proof.Machine Sys2Proof.Claims

/-! ### The table of the decided kernel -/

/-- The signs of the lobes of `KTAB` (R49): positive inside the first and the third, negative inside the second. -/
theorem kernelTable_signs : ∀ i < 193,
    (1 ≤ i ∧ i ≤ 63 ∨ 129 ≤ i ∧ i ≤ 190 → 0 < kernelTable.getD i 0) ∧
      (65 ≤ i ∧ i ≤ 127 → kernelTable.getD i 0 < 0) := by
  decide +kernel

theorem kernelTable_length : kernelTable.length = 193 := by decide +kernel

/-- `KTAB` at whole samples inside the support: 1 at the center, 0 at the others (R49). -/
theorem lanczos3_table_whole : ∀ d < 3, lanczos3.table.getD (64 * d) 0 = if d = 0 then 16384 else 0 := by
  decide +kernel

/-! ### A row of weights with one sample in it -/

/-- The weights that take sample `xx` of `n` alone, with weight `c`. -/
def impulse (c : Int) (n xx : Nat) : List Int := (List.range n).map fun i => if i = xx then c else 0

theorem impulse_sum (c : Int) {n xx : Nat} (h : xx < n) : (impulse c n xx).sum = c := by
  have hcount : (List.range n).count xx = 1 :=
    List.count_eq_one_of_mem List.nodup_range (List.mem_range.2 h)
  rw [impulse, List.sum_map_ite_eq (List.range n) (fun _ => c) (fun _ => 0) xx, hcount]
  simp

/-- The product of an impulse with a line is an impulse of the sample it takes. -/
theorem impulse_zipWith_mul (c : Int) (vs : List Int) {xx : Nat} (h : xx < vs.length) :
    List.zipWith (· * ·) (impulse c vs.length xx) vs = impulse (c * vs[xx]) vs.length xx := by
  refine List.ext_getElem (by simp [impulse]) fun i h1 h2 => ?_
  simp only [impulse, List.getElem_zipWith, List.getElem_map, List.getElem_range]
  split
  · next hi => subst hi; rfl
  · exact zero_mul _

/-- Rounding a whole multiple of the divisor is exact (R8). -/
theorem rhu_mul_self {c : Int} (hc : 0 < c) (v : Int) : rhu (c * v) c = v := by
  have hnum : 2 * (c * v) + c = c + v * (2 * c) := by ring
  rw [rhu_eq, hnum, Int.add_mul_ediv_right c v (by omega), Int.ediv_eq_zero_of_lt (by omega) (by omega), zero_add]

/-- With all the weight on one sample, R135 gives that sample. -/
theorem weightedMean_impulse {c : Int} (hc : 0 < c) (vs : List Int) {xx : Nat} (h : xx < vs.length)
    (hv : 0 ≤ vs[xx] ∧ vs[xx] ≤ 255) : weightedMean (impulse c vs.length xx) vs = vs[xx] := by
  rw [weightedMean, impulse_zipWith_mul c vs h, impulse_sum _ h, impulse_sum c h, rhu_mul_self hc]
  exact clamp_id hv.1 hv.2

/-! ### The weights at equal sizes -/

/-- At equal sizes the distance of R134 between two samples is a whole number of steps. -/
theorem tapDistance_same_size (n xx i : Nat) :
    absInt ((2 * i + 1) * n - (2 * xx + 1) * n) = 2 * n * ((i : Int) - xx).natAbs := by
  have hfactor : ((2 * i + 1) * n - (2 * xx + 1) * n : Int) = (2 * n : Nat) * ((i : Int) - xx) := by push_cast; ring
  rw [absInt_eq, hfactor, Int.natAbs_mul, Int.natAbs_natCast]
  push_cast
  rfl

/-- A distance of `d` whole steps selects entry `64 * d` of the table: the rounding of R134 adds less than one. -/
theorem tableIndex_whole {n : Nat} (hn : 0 < n) (d : Nat) :
    (floorDiv (2 * (2 * n * d) * 64 + 2 * n) (2 * (2 * n))).toNat = 64 * d := by
  have hnum : (2 * (2 * n * d) * 64 + 2 * n : Int) = 2 * n + 64 * d * (2 * (2 * n)) := by ring
  rw [floorDiv, hnum, Int.add_mul_ediv_right _ _ (by omega), Int.ediv_eq_zero_of_lt (by omega) (by omega)]
  omega

/-- At equal sizes the kernel is 0 but at the sample itself: the others lie at its zeros or outside its support
(R134). -/
theorem kernelWeight_same_size {n : Nat} (hn : 0 < n) (xx i : Nat) :
    kernelWeight lanczos3 n n xx i = if i = xx then 16384 else 0 := by
  have hself : i = xx ↔ ((i : Int) - xx).natAbs = 0 := by omega
  simp only [kernelWeight, Nat.max_self, tapDistance_same_size, hself, show lanczos3.support = 3 from rfl,
    show lanczos3.resolution = 64 from rfl]
  generalize ((i : Int) - xx).natAbs = d
  have hsupport : (3 : Int) * (2 * n) ≤ 2 * n * d ↔ 3 ≤ d := by
    rw [mul_comm (3 : Int), mul_le_mul_iff_right₀ (by omega)]; omega
  rw [tableIndex_whole hn]
  simp only [hsupport]
  split
  · next hfar => rw [if_neg (by omega)]
  · next hnear => exact lanczos3_table_whole d (by omega)

theorem kernelWeights_same_size {n : Nat} (hn : 0 < n) (xx : Nat) :
    kernelWeights lanczos3 n n xx = impulse 16384 n xx :=
  List.map_congr_left fun i _ => kernelWeight_same_size hn xx i

/-- Property 1 of R140: a line of channel values resampled to its own length is copied. -/
theorem resample_same_size (vs : List Int) (h : ∀ v ∈ vs, 0 ≤ v ∧ v ≤ 255) :
    resample lanczos3 vs vs.length = vs := by
  refine List.ext_getElem (by simp [resample]) fun xx _ hxx => ?_
  simp only [resample, List.getElem_map, List.getElem_range]
  rw [kernelWeights_same_size (by omega), weightedMean_impulse (by decide) vs hxx (h _ (List.getElem_mem hxx))]

/-- Settles O55: the table entry by entry, and the copied line by its unit weights. -/
theorem resamplerCopiesEqualSizes : Obligations.ResamplerCopiesEqualSizes := by
  refine ⟨⟨rfl, rfl, rfl, rfl, kernelTable_length, rfl, ?_, fun i v hv => ?_⟩, resample_same_size⟩
  · rintro i (rfl | rfl | rfl | rfl) <;> rfl
  · obtain ⟨hi, rfl⟩ := List.getElem?_eq_some_iff.1 hv
    rw [← List.getD_eq_getElem kernelTable 0 hi]
    exact kernelTable_signs i (kernelTable_length ▸ hi)

end Sys2Proof.Proofs
end

section
/-! PROOFS. What an offset of the window selects, and what a transaction does there on an idle and on a busy block
(R71, R72, R82). -/

namespace Sys2Proof.Proofs

open Sys2Proof Sys2Proof.Machine

/-! ### The transactions by register -/

theorem hostRead_of_regAt (s : State) {a : Offset} {r : PortReg} (ha : regAt a = some r) :
    hostRead s .word a = (.data (readReg s r).1, (readReg s r).2) := by
  simp only [hostRead, ha]

theorem hostWrite_of_regAt (s : State) (d : Word) {a : Offset} {r : PortReg} (ha : regAt a = some r) :
    hostWrite s .word a d = writeReg s d r := by
  simp only [hostWrite, ha]

theorem regAt_srcPtr : regAt 0x040 = some .srcPtr := rfl
theorem regAt_srcData : regAt 0x044 = some .srcData := rfl
theorem regAt_cnvPtr : regAt 0x048 = some .cnvPtr := rfl
theorem regAt_cnvData : regAt 0x04C = some .cnvData := rfl
theorem regAt_outPtr : regAt 0x050 = some .outPtr := rfl
theorem regAt_outData : regAt 0x054 = some .outData := rfl

theorem regAt_misaligned {a : Offset} (h : a.toNat % 4 ≠ 0) : regAt a = none := if_neg h

/-- The map above the last data port: the `GLUT` aperture in a reserved range (R71). -/
theorem portReg_above_ports {k : Nat} (h : 0x16 ≤ k) :
    portReg k = if 0x100 ≤ k ∧ k < 0x200 then .glut (k - 0x100) else .reserved := by
  unfold portReg
  split
  case h_22 => rfl
  all_goals omega

/-- Entry `v` of `GLUT` stands at offset `0x400 + 4*v` (R78). -/
theorem regAt_glut {v : Nat} (h : v < 256) : regAt (BitVec.ofNat 12 (0x400 + 4 * v)) = some (.glut v) := by
  have hoff : (BitVec.ofNat 12 (0x400 + 4 * v)).toNat = 4 * (0x100 + v) := by
    rw [BitVec.toNat_ofNat, Nat.mod_eq_of_lt (by omega)]; omega
  rw [regAt, hoff, if_pos (by omega), Nat.mul_div_cancel_left _ (by omega), portReg_above_ports (by omega),
    if_pos (by omega), Nat.add_sub_cancel_left]

/-! ### Idle and busy -/

theorem ifIdle_idle {s : State} (h : s.busy = false) (t : State) : ifIdle s t = t := by
  simp [ifIdle, h]

theorem ifIdle_busy {s : State} (h : s.busy = true) (t : State) : ifIdle s t = setOvr s := by
  simp [ifIdle, h]

theorem ifIdleRead_idle {s : State} (h : s.busy = false) (r : Word × State) : ifIdleRead s r = r := by
  simp [ifIdleRead, h]

theorem ifIdleRead_busy {s : State} (h : s.busy = true) (r : Word × State) : ifIdleRead s r = (0, setOvr s) := by
  simp [ifIdleRead, h]

/-- What the engine owns from acceptance to completion, as far as the host can write it: `CMD`, the operand registers,
the pointers, `SRC_DATA`, `CNV_DATA` and `GLUT` (R82). -/
def ownedWhileBusy : PortReg → Bool
  | .cmd | .srcDim | .cnvDim | .contrast | .bright | .color | .sharp | .usm => true
  | .srcPtr | .srcData | .cnvPtr | .cnvData | .outPtr | .glut _ => true
  | _ => false

theorem writeReg_of_ownedWhileBusy {s : State} (d : Word) {r : PortReg} (hb : s.busy = true)
    (h : ownedWhileBusy r = true) : writeReg s d r = setOvr s := by
  cases r
  case cmd => simp only [writeReg, writeCommand, hb, if_true]
  case id | cap | status | intEn | rszDim | rszOff | mean | outData | reserved => cases h
  all_goals exact ifIdle_busy hb _

/-- While `BUSY = 1` a data port and `GLUT` read 0, with `OVR` (R82). -/
theorem readReg_busy_of_not_plainRead {s : State} {r : PortReg} (hb : s.busy = true) (h : plainRead r = false) :
    readReg s r = (0, setOvr s) := by
  cases r
  case srcData | cnvData | outData | glut => exact ifIdleRead_busy hb _
  all_goals cases h

/-- `STATUS` is the one register without side effects whose word shows `BUSY`. -/
theorem readReg_word_ignores_busy (s : State) (b : Bool) {r : PortReg} (h : plainRead r = true) (hr : r ≠ .status) :
    (readReg { s with busy := b } r).1 = (readReg s r).1 := by
  cases r
  case status => exact absurd rfl hr
  case srcData | cnvData | outData | glut => cases h
  all_goals rfl

/-! ### The same classes by word index of the map -/

theorem portReg_eq_status_iff (k : Nat) : portReg k = .status ↔ k = 3 := by
  obtain hk | hk := Nat.lt_or_ge k 0x16
  · revert k; decide
  · rw [portReg_above_ports hk]
    split <;> exact iff_of_false nofun (by omega)

theorem ownedWhileBusy_portReg (k : Nat) :
    ownedWhileBusy (portReg k) = true ↔
      k = 2 ∨ (6 ≤ k ∧ k ≤ 0x0C) ∨ (0x10 ≤ k ∧ k ≤ 0x14) ∨ (0x100 ≤ k ∧ k < 0x200) := by
  obtain hk | hk := Nat.lt_or_ge k 0x16
  · revert k; decide
  · rw [portReg_above_ports hk]
    split
    · exact iff_of_true rfl (by omega)
    · exact iff_of_false nofun (by omega)

theorem plainRead_portReg (k : Nat) :
    plainRead (portReg k) = false ↔ k = 0x11 ∨ k = 0x13 ∨ k = 0x15 ∨ (0x100 ≤ k ∧ k < 0x200) := by
  obtain hk | hk := Nat.lt_or_ge k 0x16
  · revert k; decide
  · rw [portReg_above_ports hk]
    split
    · exact iff_of_true rfl (by omega)
    · exact iff_of_false nofun (by omega)

theorem ignoresWrites_portReg (k : Nat) :
    ignoresWrites (portReg k) = true ↔
      k = 0 ∨ k = 1 ∨ k = 5 ∨ (0x0D ≤ k ∧ k ≤ 0x0F) ∨ (0x15 ≤ k ∧ k < 0x100) ∨ 0x200 ≤ k := by
  obtain hk | hk := Nat.lt_or_ge k 0x16
  · revert k; decide
  · rw [portReg_above_ports hk]
    split
    · exact iff_of_false nofun (by omega)
    · exact iff_of_true rfl (by omega)

/-! ### The statements -/

/-- Settles O40: only an aligned offset selects a register, and only a word transfer reaches it. -/
theorem malformedTransfersChangeNothing : Obligations.MalformedTransfersChangeNothing := by
  rintro s width a d (hw | ha)
  · cases width
    case word => exact absurd rfl hw
    all_goals exact ⟨rfl, rfl⟩
  · simp only [hostRead, hostWrite, regAt_misaligned ha, and_self]

/-- Settles O39, by the class of the register that the offset selects. -/
theorem busyBlocksHostAccess : Obligations.BusyBlocksHostAccess := by
  intro s a d hb ha
  refine ⟨fun h => ?_, fun h => ?_, fun hstatus hsrc hcnv hout hglut => ?_,
    hostRead_of_plainRead s regAt_status rfl, ?_, fun h => ?_⟩
  · have howned := (ownedWhileBusy_portReg (a.toNat / 4)).2 (by bv_omega)
    rw [hostWrite_word s a d ha]
    exact writeReg_of_ownedWhileBusy d hb howned
  · have hport := (plainRead_portReg (a.toNat / 4)).2 (by bv_omega)
    rw [hostRead_word s a ha, readReg_busy_of_not_plainRead hb hport]
    rfl
  · have hplain : plainRead (portReg (a.toNat / 4)) = true :=
      Bool.eq_true_of_not_eq_false (mt (plainRead_portReg _).1 (by bv_omega))
    have hne : portReg (a.toNat / 4) ≠ .status := mt (portReg_eq_status_iff _).1 (by bv_omega)
    simp only [hostRead_word _ a ha, readReg_word_ignores_busy s false hplain hne,
      readReg_state_of_plainRead s hplain]
  · -- The writes of `STATUS` and `INT_EN` neither read nor change `BUSY`.
    rintro (rfl | rfl)
    · simp only [hostWrite_of_regAt _ d regAt_status, writeReg, writeStatus_eq, ← hb]
    · simp only [hostWrite_of_regAt _ d regAt_intEn, writeReg, writeIntEn, ← hb]
  · have hignored := (ignoresWrites_portReg (a.toNat / 4)).2 (by bv_omega)
    rw [hostWrite_word s a d ha]
    exact writeReg_of_ignoresWrites s d hignored

end Sys2Proof.Proofs
end

section
/-! PROOFS. The data ports and the `GLUT` aperture of an idle block (R75 to R78). -/

namespace Sys2Proof.Proofs

open Sys2Proof Sys2Proof.Machine Sys2Proof.Claims

/-! ### Pointers at the decided width -/

theorem pointerField_params (d : Word) : pointerField d = pointerOf d :=
  BitVec.eq_of_toNat_eq <| by
    rw [pointerField_toNat, pointerOf, BitVec.toNat_ofNat]
    exact (Nat.mod_eq_of_lt (by simp only [params]; omega)).symm

theorem pointerIndex_params (ptr : Word) : pointerIndex ptr = (pointerOf ptr).toNat :=
  congrArg BitVec.toNat (pointerField_params ptr)

theorem advance_params (ptr : Word) : advance ptr = pointerAfter ptr :=
  BitVec.eq_of_toNat_eq <| by
    rw [advance, pointerField_params, pointerOf, pointerAfter]
    simp only [BitVec.toNat_ofNat, BitVec.toNat_add, BitVec.ofNat_eq_ofNat]
    omega

/-! ### One cell of a memory as a data port sees it -/

section
variable {w : Nat} {m : Mem w} {size i : Nat}

theorem portCell_of_written {v : BitVec w} (hi : i < size) (h : m.get i = some v) (free : BitVec w) :
    portCell m size i free = v.setWidth 32 := by
  simp [portCell, hi, h]

theorem portCell_of_absent (hi : size ≤ i) (free : BitVec w) : portCell m size i free = 0 :=
  if_neg (Nat.not_lt.2 hi)

/-- A written cell is returned as it is: no free value is drawn. -/
theorem drawsFree_of_written {v : BitVec w} (h : m.get i = some v) : drawsFree m size i = false := by
  simp [drawsFree, h]

/-- A cell that does not exist reads 0: no free value is drawn. -/
theorem drawsFree_of_absent (hi : size ≤ i) : drawsFree m size i = false := by
  simp [drawsFree, hi]

theorem countFree_false (s : State) : countFree s false = s.freeCount := rfl

/-- A store through a port reaches the cell at the pointer if it exists, and no other. -/
theorem get_port_store (v : BitVec w) (j : Nat) :
    Mem.get (if i < size then m.put i v else m) j = if j = i ∧ j < size then some v else m.get j := by
  by_cases hi : i < size
  · rw [if_pos hi, Mem.get_put]
    exact if_congr ⟨fun h => ⟨h, h ▸ hi⟩, And.left⟩ rfl rfl
  · rw [if_neg hi, if_neg fun (h : j = i ∧ j < size) => hi (h.1 ▸ h.2)]

end

/-! ### The data transactions of an idle block -/

/-- A read of `SRC_DATA`, an unwritten cell included (R75, log 5). -/
theorem hostRead_srcData_idle {s : State} (hidle : s.busy = false) :
    hostRead s .word 0x044 =
      (.data (portCell s.src 1048576 (pointerOf s.srcPtr).toNat (Config.freePixel s.freeCount)),
        { s with
          srcPtr := pointerAfter s.srcPtr
          freeCount := countFree s (drawsFree s.src 1048576 (pointerOf s.srcPtr).toNat) }) := by
  rw [hostRead_of_regAt s regAt_srcData, readReg, ifIdleRead_idle hidle, ← pointerIndex_params, ← advance_params]
  rfl

/-- A write of `SRC_DATA` (R75). -/
theorem hostWrite_srcData_idle {s : State} (hidle : s.busy = false) (d : Word) :
    hostWrite s .word 0x044 d =
      { s with
        src :=
          if (pointerOf s.srcPtr).toNat < 1048576 then s.src.put (pointerOf s.srcPtr).toNat (d.setWidth 24) else s.src
        srcPtr := pointerAfter s.srcPtr } := by
  rw [hostWrite_of_regAt s d regAt_srcData, writeReg, ifIdle_idle hidle, ← pointerIndex_params, ← advance_params]
  rfl

/-- A read of `CNV_DATA`, an unwritten cell included (R76, log 5). -/
theorem hostRead_cnvData_idle {s : State} (hidle : s.busy = false) :
    hostRead s .word 0x04C =
      (.data (portCell s.cnv 131072 (pointerOf s.cnvPtr).toNat (Config.freePixel s.freeCount)),
        { s with
          cnvPtr := pointerAfter s.cnvPtr
          freeCount := countFree s (drawsFree s.cnv 131072 (pointerOf s.cnvPtr).toNat) }) := by
  rw [hostRead_of_regAt s regAt_cnvData, readReg, ifIdleRead_idle hidle, ← pointerIndex_params, ← advance_params]
  rfl

/-- A write of `CNV_DATA` (R76). -/
theorem hostWrite_cnvData_idle {s : State} (hidle : s.busy = false) (d : Word) :
    hostWrite s .word 0x04C d =
      { s with
        cnv :=
          if (pointerOf s.cnvPtr).toNat < 131072 then s.cnv.put (pointerOf s.cnvPtr).toNat (d.setWidth 24) else s.cnv
        cnvPtr := pointerAfter s.cnvPtr } := by
  rw [hostWrite_of_regAt s d regAt_cnvData, writeReg, ifIdle_idle hidle, ← pointerIndex_params, ← advance_params]
  rfl

/-- A read of `OUT_DATA`, an unwritten cell included (R77, log 5). -/
theorem hostRead_outData_idle {s : State} (hidle : s.busy = false) :
    hostRead s .word 0x054 =
      (.data (portCell s.out 131072 (pointerOf s.outPtr).toNat (Config.freePacked s.freeCount)),
        { s with
          outPtr := pointerAfter s.outPtr
          freeCount := countFree s (drawsFree s.out 131072 (pointerOf s.outPtr).toNat) }) := by
  rw [hostRead_of_regAt s regAt_outData, readReg, ifIdleRead_idle hidle, ← pointerIndex_params, ← advance_params]
  rfl

/-! ### The statements -/

/-- Settles O42: the pointer's field, then the cell that a data access stores or reads. -/
theorem srcPortStoresAndAdvances : Obligations.SrcPortStoresAndAdvances := by
  intro s d hidle
  refine ⟨?_, ?_, ⟨_, hostWrite_srcData_idle hidle d, get_port_store _⟩, fun p hi hp => ?_, fun hi => ?_⟩
  · rw [hostWrite_of_regAt s d regAt_srcPtr, writeReg, ifIdle_idle hidle, pointerField_params]
  · rw [hostRead_of_regAt s regAt_srcPtr, readReg, pointerField_params]
  · rw [hostRead_srcData_idle hidle, portCell_of_written hi hp, drawsFree_of_written hp, countFree_false]
  · rw [hostRead_srcData_idle hidle, portCell_of_absent hi, drawsFree_of_absent hi, countFree_false]

/-- Settles O43, as O42: R76 is R75 with the items of `CNV`. -/
theorem cnvPortStoresAndAdvances : Obligations.CnvPortStoresAndAdvances := by
  intro s d hidle
  refine ⟨?_, ?_, ⟨_, hostWrite_cnvData_idle hidle d, get_port_store _⟩, fun p hi hp => ?_, fun hi => ?_⟩
  · rw [hostWrite_of_regAt s d regAt_cnvPtr, writeReg, ifIdle_idle hidle, pointerField_params]
  · rw [hostRead_of_regAt s regAt_cnvPtr, readReg, pointerField_params]
  · rw [hostRead_cnvData_idle hidle, portCell_of_written hi hp, drawsFree_of_written hp, countFree_false]
  · rw [hostRead_cnvData_idle hidle, portCell_of_absent hi, drawsFree_of_absent hi, countFree_false]

/-- Settles O44: writes of `OUT_DATA` are of the ignored class, and its reads are as those of the other two ports. -/
theorem outPortReadsAndAdvances : Obligations.OutPortReadsAndAdvances := by
  intro s d hidle
  refine ⟨?_, ?_, hostWrite_of_ignoresWrites s d regAt_outData rfl, fun p hi hp => ?_, fun hi => ?_⟩
  · rw [hostWrite_of_regAt s d regAt_outPtr, writeReg, ifIdle_idle hidle, pointerField_params]
  · rw [hostRead_of_regAt s regAt_outPtr, readReg, pointerField_params]
  · rw [hostRead_outData_idle hidle, portCell_of_written hi hp, drawsFree_of_written hp, countFree_false]
  · rw [hostRead_outData_idle hidle, portCell_of_absent hi, drawsFree_of_absent hi, countFree_false]

/-- Settles O45: the offset selects entry `v`, and `GLUT` reads back what was put. -/
theorem glutApertureStoresOneByte : Obligations.GlutApertureStoresOneByte := by
  intro s v d hidle hv
  refine ⟨?_, glutPut s.glut v (d.setWidth 8), ?_, glutGet_glutPut s.glut v (d.setWidth 8)⟩
  · rw [hostRead_of_regAt s (regAt_glut hv), readReg, ifIdleRead_idle hidle]
  · rw [hostWrite_of_regAt s d (regAt_glut hv), writeReg, ifIdle_idle hidle]

end Sys2Proof.Proofs
end

section
/-! PROOFS. The decoder against the opcode map (R101): a command word selects the row of the command it decodes to. -/

namespace Sys2Proof.Proofs

open Sys2Proof Sys2Proof.Machine Sys2Proof.Claims

/-! ### The fields of a word (R100) -/

theorem opcodeField_append_operandField (w : Word) : opcodeField w ++ operandField w = w :=
  BitVec.extractLsb'_append_extractLsb' (w := 8) (len := 24)

theorem operandReserved_append_operandMask (operand : BitVec 24) :
    operandReserved operand ++ operandMask operand = operand :=
  BitVec.extractLsb'_append_extractLsb' (w := 15) (len := 9)

/-- `OPC`, `RSV` and `MASK` are the whole word. -/
theorem fields_append (w : Word) :
    opcodeField w ++ (operandReserved (operandField w) ++ operandMask (operandField w)) = w := by
  rw [operandReserved_append_operandMask]
  exact opcodeField_append_operandField w

/-- `MASK` is the low field of the operand field and of the word (R100). -/
theorem operandMask_operandField (w : Word) : operandMask (operandField w) = w.extractLsb' 0 9 :=
  BitVec.extractLsb'_extractLsb'_of_le (by decide)

theorem opcodeField_and (w v : Word) : opcodeField (w &&& v) = opcodeField w &&& opcodeField v :=
  BitVec.extractLsb'_and

theorem reservedField_and (w v : Word) :
    operandReserved (operandField (w &&& v)) =
      operandReserved (operandField w) &&& operandReserved (operandField v) := by
  simp only [operandField, operandReserved, BitVec.extractLsb'_and]

/-! ### The row of `RUN` -/

/-- The mask of the row of `RUN` keeps `OPC` and `RSV`, and the match fixes both (R101). -/
theorem runRow_matches_iff (w : Word) :
    w &&& 0xFFFFFE00 = 0x10000000 ↔ opcodeField w = 0x10#8 ∧ operandReserved (operandField w) = 0 := by
  constructor
  · intro hmatch
    have hopcode := congrArg opcodeField hmatch
    have hreserved := congrArg (fun v => operandReserved (operandField v)) hmatch
    simp only [reservedField_and] at hreserved
    rw [opcodeField_and] at hopcode
    exact ⟨BitVec.and_allOnes.symm.trans hopcode, BitVec.and_allOnes.symm.trans hreserved⟩
  · rintro ⟨hopcode, hreserved⟩
    have hfields := fields_append w
    rw [hopcode, hreserved] at hfields
    calc w &&& 0xFFFFFE00
        = (0x10#8 ++ (0#15 ++ operandMask (operandField w))) &&& (0xFF#8 ++ (0x7FFF#15 ++ 0#9)) :=
          congrArg (· &&& 0xFFFFFE00) hfields.symm
      _ = 0x10000000 := by
          rw [BitVec.and_append, BitVec.and_append, BitVec.and_zero]
          rfl

/-- A word of the row of `RUN` decodes to `RUN` with its operand field (R101). -/
theorem decode_of_runRow {w : Word} (h : w &&& 0xFFFFFE00 = 0x10000000) :
    decode w = .instr (.run (operandField w)) := by
  obtain ⟨hopcode, hreserved⟩ := (runRow_matches_iff w).1 h
  simp only [decode, hopcode]
  exact if_pos hreserved

/-! ### The other rows -/

/-- A row whose mask keeps every bit holds of every word that selects it when it holds of its match. -/
theorem plainRow_of_match {w pattern : Word} {i : Instr} {stages : BitVec 9}
    (h : decode pattern = .instr i ∧ stageSet i = stages) (hmatch : w &&& 0xFFFFFFFF = pattern) :
    decode w = .instr i ∧ stageSet i = stages := by
  rwa [← BitVec.and_allOnes.symm.trans hmatch] at h

theorem decodePlain_eq_instr_iff {operand : BitVec 24} {i j : Instr} :
    decodePlain operand i = .instr j ↔ operand = 0 ∧ i = j := by
  unfold decodePlain
  split
  · next hzero => simp [hzero]
  · next hne => exact iff_of_false nofun fun h => hne h.1

/-! ### From a command back to its row -/

/-- A word that decodes to a command is that command's word, and the command is well-formed (R101, R103). -/
theorem wellFormed_and_encode_of_decode {w : Word} {i : Instr} (h : decode w = .instr i) :
    i.wellFormed = true ∧ encode i = w := by
  have hword {opc : Nat} (hopc : (opcodeField w).toNat = opc) : BitVec.ofNat 8 opc ++ operandField w = w := by
    rw [← hopc, BitVec.ofNat_toNat, BitVec.setWidth_eq, opcodeField_append_operandField]
  simp only [decode] at h
  split at h
  case h_11 hopc => -- `RUN`
    split at h
    · next hreserved =>
      cases h
      exact ⟨beq_iff_eq.2 hreserved, hword hopc⟩
    · cases h
  case h_13 => cases h -- no legal `OPC`
  all_goals
    next hopc =>
    obtain ⟨hzero, rfl⟩ := decodePlain_eq_instr_iff.1 h
    rw [hzero] at hword
    exact ⟨rfl, hword hopc⟩

/-- The word of a well-formed command selects a row of the map (R101). -/
theorem exists_row_of_wellFormed {i : Instr} (h : i.wellFormed = true) :
    ∃ row ∈ opcodeMap, encode i &&& row.mask = row.pattern := by
  cases i
  case run operand =>
    have hreserved : operandReserved (operandField (encode (.run operand))) = 0 := by
      rw [operandField_run]
      exact beq_iff_eq.1 h
    exact ⟨_, List.getElem_mem (show 10 < opcodeMap.length by decide),
      (runRow_matches_iff _).2 ⟨opcodeField_run operand, hreserved⟩⟩
  all_goals decide

/-- Settles O2: row by row, and for a word of no row because a decoded word selects the row of its command. -/
theorem decodeFollowsOpcodeMap : Obligations.DecodeFollowsOpcodeMap := by
  intro w
  refine ⟨fun row hrow hmatch => ?_, fun hnone => ?_⟩
  · simp only [opcodeMap, List.mem_cons, List.not_mem_nil, or_false] at hrow
    rcases hrow with rfl | rfl | rfl | rfl | rfl | rfl | rfl | rfl | rfl | rfl | rfl | rfl
    iterate 10
      · exact plainRow_of_match ⟨rfl, rfl⟩ hmatch
    · exact ⟨decode_of_runRow hmatch, operandMask_operandField w⟩
    · exact plainRow_of_match ⟨rfl, rfl⟩ hmatch
  · cases hd : decode w with
    | illegal why => exact ⟨why, rfl⟩
    | instr i =>
      obtain ⟨hwf, rfl⟩ := wellFormed_and_encode_of_decode hd
      obtain ⟨row, hrow, hmatch⟩ := exists_row_of_wellFormed hwf
      exact absurd hmatch (hnone row hrow)

end Sys2Proof.Proofs
end

section
/-! PROOFS. The geometry of `COMPOSE` (R132, R133). -/

namespace Sys2Proof.Proofs

open Sys2Proof.Machine

section
variable {srcW srcH w h : Nat}

/-- The width limits: the image takes the whole width (R132). -/
theorem geometry_of_width_limits (hlim : w * srcH ≤ h * srcW) :
    (geometry srcW srcH w h).newW = w ∧ (geometry srcW srcH w h).newH = srcH * w / srcW :=
  ⟨if_pos hlim, if_pos hlim⟩

/-- The height limits: the image takes the whole height (R132). -/
theorem geometry_of_height_limits (hlim : ¬ w * srcH ≤ h * srcW) :
    (geometry srcW srcH w h).newW = srcW * h / srcH ∧ (geometry srcW srcH w h).newH = h :=
  ⟨if_neg hlim, if_neg hlim⟩

/-- Neither resized dimension exceeds the canvas, and the one that limits is the canvas's (R132). -/
theorem geometry_fits :
    (geometry srcW srcH w h).newW ≤ w ∧ (geometry srcW srcH w h).newH ≤ h ∧
      ((geometry srcW srcH w h).newW = w ∨ (geometry srcW srcH w h).newH = h) := by
  by_cases hlim : w * srcH ≤ h * srcW
  · obtain ⟨hW, hH⟩ := geometry_of_width_limits hlim
    refine ⟨hW.le, hH.trans_le (Nat.div_le_of_le_mul ?_), .inl hW⟩
    rwa [Nat.mul_comm srcH, Nat.mul_comm srcW]
  · obtain ⟨hW, hH⟩ := geometry_of_height_limits hlim
    refine ⟨hW.trans_le (Nat.div_le_of_le_mul ?_), hH.le, .inr hH⟩
    rw [Nat.mul_comm srcW, Nat.mul_comm srcH]
    exact (Nat.lt_of_not_le hlim).le

end

/-- Half of the room to the left leaves as much on the right, or one more (R133). -/
theorem margins_differ_by_at_most_one {inner outer : Nat} (hle : inner ≤ outer) :
    (outer - inner) / 2 ≤ outer - ((outer - inner) / 2 + inner) ∧
      outer - ((outer - inner) / 2 + inner) ≤ (outer - inner) / 2 + 1 := by
  omega

/-- Settles O54: the limiting dimension fills the canvas, and each axis is centered. -/
theorem geometryFitsTheCanvas : Obligations.GeometryFitsTheCanvas := by
  intro srcW srcH w h _ _
  obtain ⟨hW, hH, hfull⟩ := geometry_fits (srcW := srcW) (srcH := srcH) (w := w) (h := h)
  obtain ⟨hleft, hright⟩ := margins_differ_by_at_most_one hW
  obtain ⟨htop, hbottom⟩ := margins_differ_by_at_most_one hH
  exact ⟨hW, hH, hfull, hleft, hright, htop, hbottom⟩

end Sys2Proof.Proofs
end

section
/-! PROOFS. The resampler over sample positions: the rules' formulas, and a line of one value (R134, R135, R140
property 2). -/

namespace Sys2Proof.Proofs

open Sys2Proof.Machine Sys2Proof.Claims

/-- R135 on a line and weights given by position. -/
theorem weightedMean_map_range (n : Nat) (weight line : Nat → Int) :
    weightedMean ((List.range n).map weight) ((List.range n).map line) =
      clamp8 (rhu (sumTo n fun i => weight i * line i) (sumTo n weight)) := by
  rw [weightedMean, List.zipWith_map, List.zipWith_self]
  rfl

/-- Pre-check 4 on one axis (R131). -/
theorem axisPositive_iff (k : Kernel) (nIn nOut : Nat) :
    axisPositive k nIn nOut = true ↔ ∀ xx < nOut, 0 < kernelSum k nIn nOut xx := by
  simp only [axisPositive, List.all_eq_true, List.mem_range, decide_eq_true_eq]

theorem not_axisPositive_iff (k : Kernel) (nIn nOut : Nat) :
    ¬ axisPositive k nIn nOut = true ↔ ∃ xx < nOut, kernelSum k nIn nOut xx ≤ 0 := by
  simp only [axisPositive_iff, not_forall, not_lt, exists_prop]

/-! ### A line of one value -/

/-- A positive sum of weights divides out of a line of one value. -/
theorem weightedMean_replicate {n : Nat} {weight : Nat → Int} {v : Int} (hpos : 0 < sumTo n weight)
    (hv : 0 ≤ v) (hv' : v ≤ 255) : weightedMean ((List.range n).map weight) (List.replicate n v) = v := by
  have hline : List.replicate n v = (List.range n).map fun _ => v := by
    rw [List.map_const', List.length_range]
  have hsum : (sumTo n fun i => weight i * v) = sumTo n weight * v := List.sum_map_mul_right ..
  rw [hline, weightedMean_map_range, hsum, rhu_mul_self hpos]
  exact clamp_id hv hv'

/-- Settles O56, output sample by output sample. -/
theorem resamplerKeepsFlatLines : Obligations.ResamplerKeepsFlatLines := by
  intro n nOut v hv hv' hpos
  rw [axisPositive_iff] at hpos
  refine List.ext_getElem (by simp [resample]) fun xx hxx _ => ?_
  have hxx' : xx < nOut := by simpa [resample] using hxx
  simp only [resample, List.getElem_map, List.getElem_range, List.getElem_replicate, List.length_replicate]
  exact weightedMean_replicate (hpos xx hxx') hv hv'

/-! ### The decided kernel and the formulas of the rules -/

/-- The weight of the decided kernel is R134's. -/
theorem kernelWeight_lanczos3 (nIn nOut xx i : Nat) :
    kernelWeight lanczos3 nIn nOut xx i = weightRule nIn nOut xx i := by
  simp only [kernelWeight, weightRule, absInt_eq, floorDiv, show lanczos3.support = 3 from rfl,
    show lanczos3.resolution = 64 from rfl, show lanczos3.table = kernelTable from rfl]
  generalize ((2 * (i : Int) + 1) * nOut - (2 * xx + 1) * nIn).natAbs = a
  have hindex : ((2 * (a : Int) * 64 + 2 * (max nIn nOut : Nat)) / (2 * (2 * (max nIn nOut : Nat)))).toNat =
      (2 * a * 64 + 2 * max nIn nOut) / (2 * (2 * max nIn nOut)) := by
    exact_mod_cast Int.toNat_natCast _
  rw [hindex]
  exact if_congr (by omega) rfl rfl

theorem kernelSum_lanczos3 (nIn nOut xx : Nat) : kernelSum lanczos3 nIn nOut xx = weightSumRule nIn nOut xx :=
  congrArg List.sum (List.map_congr_left fun i _ => kernelWeight_lanczos3 nIn nOut xx i)

/-- One output sample of the decided kernel is R135's. -/
theorem weightedMean_lanczos3 (line : Nat → Int) (nIn nOut xx : Nat) :
    weightedMean (kernelWeights lanczos3 nIn nOut xx) ((List.range nIn).map line) =
      resampleRule line nIn nOut xx := by
  have hweights : kernelWeight lanczos3 nIn nOut xx = weightRule nIn nOut xx :=
    funext fun i => kernelWeight_lanczos3 nIn nOut xx i
  rw [kernelWeights, weightedMean_map_range, hweights, clamp8_eq, rhu_eq]
  rfl

theorem resampleRule_congr {f g : Nat → Int} {nIn : Nat} (h : ∀ i < nIn, f i = g i) (nOut xx : Nat) :
    resampleRule f nIn nOut xx = resampleRule g nIn nOut xx := by
  have hline : (List.range nIn).map f = (List.range nIn).map g :=
    List.map_congr_left fun i hi => h i (List.mem_range.1 hi)
  rw [← weightedMean_lanczos3, hline, weightedMean_lanczos3]

end Sys2Proof.Proofs
end

section
/-! PROOFS. The image `COMPOSE` makes (R136 to R138): the two passes and the paste, pixel by pixel. -/

namespace Sys2Proof.Proofs

open Sys2Proof.Machine Sys2Proof.Claims

/-! ### The two passes -/

/-- Every channel of a resampled line of pixels is the weighted mean of that channel (R135). -/
theorem chan_resamplePixels (axis : List (List Int)) (line : List Pixel) (c : Channel) {xx : Nat}
    (hxx : xx < axis.length) :
    chan ((resamplePixels axis line).getD xx 0) c = weightedMean axis[xx] (line.map (chan · c)) := by
  rw [resamplePixels, List.getD_eq_getElem _ _ (by simpa using hxx), List.getElem_map, chan_rgb888]
  · cases c <;> rfl
  · intro d
    cases d <;> exact clamp8_range _

/-- One pixel of a resampled line under the decided kernel, the line given by position (R135). -/
theorem chan_resamplePixels_lanczos3 (pixelAt : Nat → Pixel) (c : Channel) (nIn : Nat) {nOut xx : Nat}
    (hxx : xx < nOut) :
    chan ((resamplePixels (axisWeights lanczos3 nIn nOut) ((List.range nIn).map pixelAt)).getD xx 0) c =
      resampleRule (fun i => chan (pixelAt i) c) nIn nOut xx := by
  rw [chan_resamplePixels _ _ _ (by simpa [axisWeights] using hxx), List.map_map, ← weightedMean_lanczos3]
  simp only [axisWeights, List.getElem_map, List.getElem_range]
  rfl

/-- Column `x` of `TMP`: sample `x` of every resampled source row (R136, R137). -/
theorem column_horizontalPass (k : Kernel) (S : Raster) (newW x : Nat) :
    column ((horizontalPass k S newW).map List.toArray) x =
      (List.range S.height).map fun y =>
        (resamplePixels (axisWeights k S.width newW) ((List.range S.width).map fun x => S.pixel x y)).getD x 0 := by
  simp [column, horizontalPass, Function.comp_def]

/-- `RSZ` at `(i, j)` is sample `j` of the resampled column `i` of `TMP` (R137). -/
theorem resized_getD (k : Kernel) (S : Raster) {newW i : Nat} (hi : i < newW) (newH j : Nat) :
    ((resized k S newW newH).getD i #[]).getD j 0 =
      (resamplePixels (axisWeights k S.height newH)
        (column ((horizontalPass k S newW).map List.toArray) i)).getD j 0 := by
  simp [resized, verticalPass, hi, horizontalPass]

theorem chan_sourceRaster_pixel (s : State) {x y : Nat} (hx : x < s.srcWidth) (hy : y < s.srcHeight) (c : Channel) :
    chan (s.sourceRaster.pixel x y) c = s.sourceChan x y c := by
  rw [sourceRaster_pixel s hx hy, State.sourceChan]

/-- `RSZ` is the rules' two-pass resampled source (R136, R137). -/
theorem chan_resized (s : State) (c : Channel) {i j : Nat} (hi : i < newWidth s) (hj : j < newHeight s) :
    chan (((resized lanczos3 s.sourceRaster (newWidth s) (newHeight s)).getD i #[]).getD j 0) c =
      resizedRule s i j c := by
  rw [resized_getD _ _ hi, column_horizontalPass, chan_resamplePixels_lanczos3 _ _ _ hj, resizedRule]
  refine resampleRule_congr (fun y hy => ?_) _ _
  rw [chan_resamplePixels_lanczos3 _ _ _ hi]
  exact resampleRule_congr (fun x hx => chan_sourceRaster_pixel s hx hy c) _ _

/-! ### The paste -/

/-- The composed canvas at `(x, y)` (R138). -/
theorem chan_pastedPixel (s : State) (x y : Nat) (c : Channel) :
    chan (pastedPixel s.geometry (resized lanczos3 s.sourceRaster s.geometry.newW s.geometry.newH) x y) c =
      composedRule s x y c := by
  by_cases hin : s.geometry.offX ≤ x ∧ x < s.geometry.offX + s.geometry.newW ∧
      s.geometry.offY ≤ y ∧ y < s.geometry.offY + s.geometry.newH
  · rw [pastedPixel, if_pos hin]
    refine (chan_resized s c ?_ ?_).trans (if_pos hin).symm
    · show x - s.geometry.offX < s.geometry.newW
      omega
    · show y - s.geometry.offY < s.geometry.newH
      omega
  · rw [pastedPixel, if_neg hin]
    refine Eq.trans ?_ (if_neg hin).symm
    cases c <;> rfl

/-- `CNV` after the stage: the composed canvas, and the cells at or beyond `W*H` as they were (R138). -/
theorem canvasIs_fill_composedCells (s : State) :
    canvasIs s (s.cnv.fill (composedCells lanczos3 s.sourceRaster s.width s.height)) (composedRule s) := by
  obtain ⟨hinside, hbeyond⟩ := get_fill_render s.cnv s.width s.height
    (pastedPixel s.geometry (resized lanczos3 s.sourceRaster s.geometry.newW s.geometry.newH))
  refine ⟨fun x hx y hy c => ?_, hbeyond⟩
  exact (congrArg (Option.map (chan · c)) (hinside x hx y hy)).trans (congrArg some (chan_pastedPixel s x y c))

end Sys2Proof.Proofs
end

section
/-! PROOFS. `COMPOSE` as a command: the pre-checks in their order, and the completed stage (R130, R131, R139). -/

namespace Sys2Proof.Proofs

open Sys2Proof Sys2Proof.Machine Sys2Proof.Claims

/-! ### The pre-checks under a configuration (R131) -/

section
variable {s : State} {p : Params}

theorem composeError_of_empty_source (h : s.srcWidth = 0 ∨ s.srcHeight = 0) :
    composeError s p = some .invalidInput := if_pos h

theorem composeError_of_unusable (hsrc : ¬ (s.srcWidth = 0 ∨ s.srcHeight = 0))
    (h : ¬ s.canvasLegal p ∨ p.srcPixels < s.srcCells) : composeError s p = some .badDim := by
  rw [composeError, if_neg hsrc, if_pos h]

theorem composeError_of_empty_image (hsrc : ¬ (s.srcWidth = 0 ∨ s.srcHeight = 0))
    (hdim : ¬ (¬ s.canvasLegal p ∨ p.srcPixels < s.srcCells))
    (h : s.geometry.newW = 0 ∨ s.geometry.newH = 0) : composeError s p = some .degenerate := by
  rw [composeError, if_neg hsrc, if_neg hdim]
  exact if_pos h

/-- With the first three pre-checks passed, the fourth decides. -/
theorem composeError_of_image (hsrc : ¬ (s.srcWidth = 0 ∨ s.srcHeight = 0))
    (hdim : ¬ (¬ s.canvasLegal p ∨ p.srcPixels < s.srcCells))
    (himage : ¬ (s.geometry.newW = 0 ∨ s.geometry.newH = 0)) :
    composeError s p =
      if ¬ (axisPositive p.kernel s.srcWidth s.geometry.newW ∧
          axisPositive p.kernel s.srcHeight s.geometry.newH) then some .kernel
      else none := by
  rw [composeError, if_neg hsrc, if_neg hdim]
  exact if_neg himage

end

/-- Whatever the kernel, the canvas dimensions of pre-check 2 are the decided ones. -/
theorem canvasLegal_iff (s : State) (k : Kernel) :
    s.canvasLegal { params with kernel := k } = true ↔ canvasUsable s := by
  simp only [State.canvasLegal, canvasUsable, Bool.and_eq_true, bne_iff_ne, decide_eq_true_eq, and_assoc]
  rfl

/-- Pre-check 2 fails on an unusable canvas or too large a source, whatever the kernel. -/
theorem unusable_iff (s : State) (k : Kernel) :
    ¬ s.canvasLegal { params with kernel := k } ∨ params.srcPixels < s.srcCells ↔
      ¬ canvasUsable s ∨ 1048576 < s.srcWidth * s.srcHeight :=
  or_congr (not_congr (canvasLegal_iff s k)) Iff.rfl

theorem not_unusable {s : State} (k : Kernel) (hcanvas : canvasUsable s)
    (hsource : s.srcWidth * s.srcHeight ≤ 1048576) :
    ¬ (¬ s.canvasLegal { params with kernel := k } ∨ params.srcPixels < s.srcCells) := by
  rw [unusable_iff, not_or, not_not]
  exact ⟨hcanvas, Nat.not_lt.2 hsource⟩

/-- A weight sum that is not positive, on either axis, is the KERNEL error (R131, R141). -/
theorem composeError_of_nonpositive_sum {s : State} (k : Kernel) (hsrc : ¬ (s.srcWidth = 0 ∨ s.srcHeight = 0))
    (hcanvas : canvasUsable s) (hsource : s.srcWidth * s.srcHeight ≤ 1048576)
    (himage : ¬ (newWidth s = 0 ∨ newHeight s = 0))
    (h : (∃ xx < newWidth s, kernelSum k s.srcWidth (newWidth s) xx ≤ 0) ∨
      (∃ xx < newHeight s, kernelSum k s.srcHeight (newHeight s) xx ≤ 0)) :
    composeError s { params with kernel := k } = some .kernel := by
  rw [composeError_of_image hsrc (not_unusable k hcanvas hsource) himage]
  exact if_pos (not_and_or.2 (h.imp (not_axisPositive_iff ..).2 (not_axisPositive_iff ..).2))

/-- On the dimensions of `composeLegal` no pre-check fails (R131). -/
theorem composeError_of_composeLegal {s : State} (h : composeLegal s) : composeError s = none := by
  obtain ⟨hsrcW, hsrcH, hw, hh, hcells, hsource, hnewW, hnewH, hsumW, hsumH⟩ := h
  have hposW : axisPositive lanczos3 s.srcWidth (newWidth s) = true :=
    (axisPositive_iff ..).2 fun xx hxx => kernelSum_lanczos3 .. ▸ hsumW xx hxx
  have hposH : axisPositive lanczos3 s.srcHeight (newHeight s) = true :=
    (axisPositive_iff ..).2 fun xx hxx => kernelSum_lanczos3 .. ▸ hsumH xx hxx
  exact (composeError_of_image (not_or.2 ⟨hsrcW, hsrcH⟩) (not_unusable lanczos3 ⟨hw, hh, hcells⟩ hsource)
    (not_or.2 ⟨hnewW, hnewH⟩)).trans (if_neg (not_not.2 ⟨hposW, hposH⟩))

/-! ### The command -/

theorem hostWrite_compose_of_ready {s : State} (h : s.ready) :
    hostWrite s .word 0x008 0x01000000 = accept s 0x01000000 Stage.compose.only := by
  rw [hostWrite_of_regAt s _ regAt_cmd, writeReg, writeCommand, h.1, h.2]
  rfl

theorem exec_compose_of_ready {s : State} (h : s.ready) :
    exec .compose s = engineRun 10 (accept s 0x01000000 Stage.compose.only) := by
  rw [exec, execCompose, issue, h.1, h.2]
  rfl

/-- A failed pre-check ends the stage before anything is read (R131, R269). -/
theorem stageCompose_of_error {s : State} {p : Params} {code : ErrorCode} (h : composeError s p = some code) :
    stageCompose s p = .error code := by
  rw [stageCompose, h]

theorem stageCompose_of_no_error {s : State} (hnone : composeError s = none) (hwritten : s.sourceWritten) :
    stageCompose s = .finished (composeWrite s s.sourceRaster) := by
  rw [stageCompose, hnone, sourceImage_eq_some s hwritten]

/-- `COMPOSE` accepted with command word `w`, as its stage starts (R240, R241). -/
def composeStarted (s : State) (w : Word) : State :=
  { accept s w Stage.compose.only with stage := Stage.compose.id }

/-- The pre-checks read the four dimensions only, which acceptance leaves alone. -/
theorem composeError_composeStarted (s : State) (w : Word) (p : Params) :
    composeError (composeStarted s w) p = composeError s p := rfl

theorem engineStep_of_compose_accepted (s : State) (w : Word) (p : Params) :
    engineStep (accept s w Stage.compose.only) p = stageStep (accept s w Stage.compose.only) .compose p := by
  rw [engineStep, accept_pend, lowestPending_only]

/-- A failed pre-check ends the accepted command in its first engine step, under any configuration (R268). -/
theorem engineRun_of_composeError (n : Nat) {s : State} (w : Word) {p : Params} {code : ErrorCode}
    (h : composeError s p = some code) :
    engineRun (n + 1) (accept s w Stage.compose.only) p = .next (failed s w 1 code.code) := by
  have hstage : runStage .compose (composeStarted s w) p = .error code :=
    stageCompose_of_error ((composeError_composeStarted s w p).trans h)
  have hstep : stageStep (accept s w Stage.compose.only) .compose p = .next (failed s w 1 code.code) := by
    rw [composeStarted] at hstage
    rw [stageStep, hstage]
    rfl
  rw [engineRun, accept_busy, engineStep_of_compose_accepted, hstep]
  cases n <;> rfl

theorem exec_compose_of_composeError {s : State} (hready : s.ready) {code : ErrorCode}
    (h : composeError s = some code) : exec .compose s = .next (failed s 0x01000000 1 code.code) := by
  rw [exec_compose_of_ready hready, engineRun_of_composeError 9 0x01000000 h]

/-- With its pre-checks passed and its source written the command completes with what the stage writes (R139). -/
theorem exec_compose_of_no_error {s : State} (hready : s.ready) (hnone : composeError s = none)
    (hwritten : s.sourceWritten) :
    exec .compose s = .next (composeWrite (completed s 0x01000000 1) s.sourceRaster) := by
  have hstage : runStage .compose (composeStarted s 0x01000000) =
      .finished (composeWrite (composeStarted s 0x01000000) s.sourceRaster) :=
    stageCompose_of_no_error ((composeError_composeStarted s _ _).trans hnone) hwritten
  rcases issue_only s 0x01000000 .compose hready with ⟨t, ht, e⟩ | ⟨code, hcode, _⟩ | ⟨m, hm, _⟩
  · cases hstage.symm.trans ht
    exact e
  · cases hstage.symm.trans hcode
  · cases hstage.symm.trans hm

/-! ### The statements -/

/-- Settles O15: no pre-check fails, the stage writes the composed cells, and those are the rules' pixels. -/
theorem composeResizesAndCenters : Obligations.ComposeResizesAndCenters := by
  intro s hready hlegal hwritten
  exact ⟨_, exec_compose_of_no_error hready (composeError_of_composeLegal hlegal) hwritten,
    canvasIs_fill_composedCells s⟩

/-- Settles O16, pre-check by pre-check; the decided kernel is the fourth's case `lanczos3`. -/
theorem composeErrorsInOrder : Obligations.ComposeErrorsInOrder := by
  intro s hready
  refine ⟨fun hempty => exec_compose_of_composeError hready (composeError_of_empty_source hempty),
    fun hsrcW hsrcH => ?_⟩
  have hsrc := not_or.2 ⟨hsrcW, hsrcH⟩
  refine ⟨fun hdim => ?_, fun hcanvas hsource =>
    ⟨fun himage => ?_, fun hnewW hnewH => ⟨fun hsum => ?_, fun k hsum => ?_⟩⟩⟩
  · exact exec_compose_of_composeError hready (composeError_of_unusable hsrc ((unusable_iff s lanczos3).2 hdim))
  · exact exec_compose_of_composeError hready
      (composeError_of_empty_image hsrc (not_unusable lanczos3 hcanvas hsource) himage)
  · simp only [← kernelSum_lanczos3] at hsum
    exact exec_compose_of_composeError hready
      (composeError_of_nonpositive_sum lanczos3 hsrc hcanvas hsource (not_or.2 ⟨hnewW, hnewH⟩) hsum)
  · have herr := composeError_of_nonpositive_sum k hsrc hcanvas hsource (not_or.2 ⟨hnewW, hnewH⟩) hsum
    refine ⟨herr, ?_⟩
    rw [hostWrite_compose_of_ready hready]
    exact engineRun_of_composeError 9 0x01000000 herr

end Sys2Proof.Proofs
end

section
/-! PROOFS. A stage over the canvas as a command: `BAD_DIM` on an unusable canvas, the new canvas on a written one
(R160, R241, R242, R268). -/

namespace Sys2Proof.Proofs

open Sys2Proof.Machine Sys2Proof.Claims

/-- A stage accepted with command word `w`, as it starts (R240, R241). -/
def stageStarted (s : State) (w : Word) (st : Stage) : State := { accept s w st.only with stage := st.id }

theorem canvasUsable_iff (s : State) : s.canvasLegal = true ↔ canvasUsable s := canvasLegal_iff s lanczos3

section
variable {s : State} {st : Stage} {write : State → Raster → State}

theorem issue_of_unusable (w : Word) (hready : s.ready) (hstage : ∀ u, runStage st u = onCanvas u (write u))
    (h : ¬ canvasUsable s) : issue s w st.only = .next (failed s w st.id 0x03) := by
  have hlegal := mt (canvasUsable_iff s).1 h
  rcases issue_onCanvas s w st hready write hstage with ⟨_, e⟩ | ⟨hl, _⟩ | ⟨hl, _⟩
  · exact e
  · exact absurd hl hlegal
  · exact absurd hl hlegal

theorem issue_of_written (w : Word) (hready : s.ready) (hstage : ∀ u, runStage st u = onCanvas u (write u))
    (h : canvasUsable s) (hwritten : s.canvasWritten) :
    issue s w st.only =
      .next { write (stageStarted s w st) s.canvasRaster with pend := 0, busy := false, done := true } := by
  rcases issue_onCanvas s w st hready write hstage with ⟨hl, _⟩ | ⟨_, hc, _⟩ | ⟨_, _, e⟩
  · exact absurd ((canvasUsable_iff s).2 h) (by simp [hl])
  · exact absurd hwritten hc
  · exact e

end

/-- The canvas written channel by channel, where the values written are those of the rule `f` (R160). -/
theorem canvasIs_fill_mapChannels {s : State} {g f : Nat → Nat → Channel → Int}
    (hvalue : ∀ x < s.width, ∀ y < s.height, ∀ c, g x y c = f x y c)
    (hrange : ∀ x y c, 0 ≤ f x y c ∧ f x y c ≤ 255) :
    canvasIs s (s.cnv.fill (mapChannels s.canvasRaster g)) f := by
  obtain ⟨hinside, hbeyond⟩ := get_fill_mapChannels s.cnv s.canvasRaster g fun x hx y hy c => by
    rw [hvalue x hx y hy c]
    exact hrange x y c
  exact ⟨fun x hx y hy c => (hinside x hx y hy c).trans (congrArg some (hvalue x hx y hy c)), hbeyond⟩

/-- A stage that only rewrites the canvas channel by channel is `canvasCommand` of its rule. -/
theorem canvasCommand_of_mapChannels {s : State} {i : Instr} {w : Word} {st : Stage}
    {g : State → Raster → Nat → Nat → Channel → Int} {f : Nat → Nat → Channel → Int} (hready : s.ready)
    (hexec : exec i s = issue s w st.only)
    (hstage : ∀ u, runStage st u = onCanvas u fun P => { u with cnv := u.cnv.fill (mapChannels P (g u P)) })
    (hvalue : canvasUsable s →
      ∀ x < s.width, ∀ y < s.height, ∀ c, g (stageStarted s w st) s.canvasRaster x y c = f x y c)
    (hrange : ∀ x y c, 0 ≤ f x y c ∧ f x y c ≤ 255) :
    canvasCommand i w st.id s f := by
  constructor
  · intro husable hwritten
    exact ⟨_, hexec.trans (issue_of_written w hready hstage husable hwritten),
      canvasIs_fill_mapChannels (hvalue husable) hrange⟩
  · intro hunusable
    exact hexec.trans (issue_of_unusable w hready hstage hunusable)

end Sys2Proof.Proofs
end

section
/-! PROOFS. The enhancer's operations against the formulas of the rules, and the ranges of those formulas (R161 to R163,
R167, R170, R172). -/

namespace Sys2Proof.Proofs

open Sys2Proof.Machine Sys2Proof.Claims

/-! ### Luminance and mean (R161, R162) -/

theorem luma_eq_lumaRule (p : Pixel) : luma params p = lumaRule (chan p .red) (chan p .green) (chan p .blue) := rfl

theorem luma_canvasPixel (s : State) (x y : Nat) : luma params (s.canvasPixel x y) = canvasLuma s x y := rfl

/-- The weights sum to 65536 (R161). -/
theorem lumaRule_gray (v : Int) : lumaRule v v v = v := by
  unfold lumaRule
  omega

/-- The canvas pixel at the position of cell `k` is what the cell holds (R79). -/
theorem canvasPixel_of_index (s : State) (k : Nat) :
    s.canvasPixel (k % s.width) (k / s.width) = (s.cnv.get k).getD 0 := by
  rw [State.canvasPixel, Nat.div_add_mod']

/-- The cells in raster order are the positions in raster order, so the two means sum the same luminances (R162). -/
theorem grayMean_canvasRaster (s : State) : grayMean params s.canvasRaster = canvasMean s := by
  have hsum : (s.canvasRaster.cells.toList.map (luma params)).sum =
      sumTo (s.width * s.height) fun k => canvasLuma s (k % s.width) (k / s.width) := by
    simp only [State.canvasRaster, List.map_map, sumTo, Function.comp_def, ← luma_canvasPixel, canvasPixel_of_index]
    rfl
  rw [grayMean, hsum, rhu_eq]
  rfl

theorem canvasMean_range {s : State} (h : canvasUsable s) : 0 ≤ canvasMean s ∧ canvasMean s ≤ 255 := by
  obtain ⟨hw, hh, _⟩ := h
  rw [← grayMean_canvasRaster]
  exact grayMean_range _ (Nat.mul_ne_zero hw hh) (by simp [State.canvasRaster, State.canvasCells])

/-! ### Blend and unsharp mask (R163, R172) -/

theorem blend_eq_blendRule (ref v F : Int) : blend ref v F = blendRule ref v F := clamp8_eq _

theorem blendRule_range (ref v F : Int) : 0 ≤ blendRule ref v F ∧ blendRule ref v F ≤ 255 :=
  blend_eq_blendRule ref v F ▸ blend_range ref v F

theorem unsharpMask_eq_unsharpRule (amt thr v b : Int) : unsharpMask amt thr v b = unsharpRule amt thr v b := by
  simp only [unsharpMask, unsharpRule, clamp8_eq]
  exact if_congr (by rw [absInt_eq]; omega) rfl rfl

theorem unsharpRule_range {v : Int} (amt thr b : Int) (h : 0 ≤ v ∧ v ≤ 255) :
    0 ≤ unsharpRule amt thr v b ∧ unsharpRule amt thr v b ≤ 255 :=
  unsharpMask_eq_unsharpRule amt thr v b ▸ unsharpMask_range amt thr b h.1 h.2

/-! ### Smoothing (R167) -/

/-- The table's nine terms in row-major order are the center and its eight neighbours. -/
theorem smooth_canvasRaster {s : State} (h : canvasUsable s) (x y : Int) (c : Channel) :
    smooth params.smooth s.canvasRaster x y c = smoothRule s x y c := by
  obtain ⟨hw, hh, _⟩ := h
  have hnext (z : Int) : z + 2 - 1 = z + 1 := by omega
  simp [smooth, canvasRaster_at s hw hh, rhu_eq, smoothRule, params, hnext]
  omega

/-! ### Separable blur (R170) -/

/-- A sum over a list of weights with their places is the sum over the places. -/
theorem sum_zipIdx_eq_sumTo {ws : List Int} {T : Nat → Int} {n : Nat} (hws : ws = (List.range n).map T)
    (f : Int → Nat → Int) : (ws.zipIdx.map fun t => f t.1 t.2).sum = sumTo n fun i => f (T i) i := by
  refine congrArg List.sum (List.ext_getElem (by simp [hws]) fun i _ _ => ?_)
  simp [hws]

/-- A table of `2 r + 1` taps blurs the canvas as R170 says of the taps by place. -/
theorem gaussBlur_canvasRaster {s : State} (h : canvasUsable s) {taps : List Int} {r : Nat} {T : Nat → Int}
    (htaps : taps = (List.range (2 * r + 1)).map T) (x y : Int) (c : Channel) :
    gaussBlur taps s.canvasRaster x y c = blurRule s r T x y c := by
  obtain ⟨hw, hh, _⟩ := h
  have hr : taps.length / 2 = r := by
    rw [htaps, List.length_map, List.length_range]
    omega
  simp only [gaussBlur, hr, canvasRaster_at s hw hh, floorDiv, blurRule]
  rw [sum_zipIdx_eq_sumTo htaps fun tj j =>
    (taps.zipIdx.map fun ti => ti.1 * tj * s.canvasAt (x + ti.2 - r) (y + j - r) c).sum]
  have hrow (j : Nat) := sum_zipIdx_eq_sumTo htaps fun ti i => ti * T j * s.canvasAt (x + i - r) (y + j - r) c
  simp only [hrow]

/-- Non-negative weights keep the range of the values, scaled by their sum. -/
theorem sumTo_weighted_range {n : Nat} {T v : Nat → Int} {B : Int} (hT : ∀ i, 0 ≤ T i)
    (hv : ∀ i, 0 ≤ v i ∧ v i ≤ B) :
    0 ≤ sumTo n (fun i => T i * v i) ∧ sumTo n (fun i => T i * v i) ≤ sumTo n T * B := by
  constructor
  · refine List.sum_nonneg fun u hu => ?_
    obtain ⟨i, _, rfl⟩ := List.mem_map.1 hu
    exact mul_nonneg (hT i) (hv i).1
  · refine (List.sum_le_sum fun i _ => mul_le_mul_of_nonneg_left (hv i).2 (hT i)).trans_eq ?_
    exact List.sum_map_mul_right ..

/-- Taps that sum to 256 keep the range of a channel: each row of the sum gains a factor 256, and so do the rows
together (R170). -/
theorem blurRule_range (s : State) {r : Nat} {T : Nat → Int} (hT : ∀ i, 0 ≤ T i) (hsum : sumTo (2 * r + 1) T = 256)
    (x y : Int) (c : Channel) : 0 ≤ blurRule s r T x y c ∧ blurRule s r T x y c ≤ 255 := by
  have hrow (j : Nat) := sumTo_weighted_range (n := 2 * r + 1) hT fun i =>
    canvasAt_range s (x + i - r) (y + j - r) c
  have hall := sumTo_weighted_range (n := 2 * r + 1) hT hrow
  have hfactor (j : Nat) : (sumTo (2 * r + 1) fun i => T i * T j * s.canvasAt (x + i - r) (y + j - r) c) =
      T j * sumTo (2 * r + 1) fun i => T i * s.canvasAt (x + i - r) (y + j - r) c := by
    simp only [mul_comm (T _) (T j), mul_assoc]
    exact List.sum_map_mul_left ..
  simp only [blurRule, hfactor]
  rw [hsum] at hall
  omega

theorem denoiseTap_nonneg (i : Nat) : 0 ≤ denoiseTap i := by
  unfold denoiseTap
  split <;> decide

theorem unsharpTap_nonneg (i : Nat) : 0 ≤ unsharpTap i := by
  unfold unsharpTap
  split <;> decide

end Sys2Proof.Proofs
end

section
/-! PROOFS. The enhancer's stages as commands (R164, R166, R168, R171, R172), and the luminance (R161). -/

namespace Sys2Proof.Proofs

open Sys2Proof.Machine Sys2Proof.Claims

/-- Settles O59: the luminance is the rule's formula, whose weights sum to 65536. -/
theorem luminanceOfGrayIsItsValue : Obligations.LuminanceOfGrayIsItsValue := by
  intro p
  obtain ⟨hlow, hhigh⟩ := luma_range p
  refine ⟨luma_eq_lumaRule p, hlow, hhigh, fun hrg hgb => ?_⟩
  rw [luma_eq_lumaRule, ← hgb, ← hrg, lumaRule_gray]

/-- Settles O17: `MEAN` and the blend's reference are the mean of the snapshot, the canvas's, and it fits a byte. -/
theorem contrastBlendsAgainstTheMean : Obligations.ContrastBlendsAgainstTheMean := by
  intro s hready
  have hstage : ∀ u, runStage .contrast u = onCanvas u fun P =>
      { u with
        cnv := u.cnv.fill (mapChannels P fun x y c => blend (grayMean params P) (P.channel x y c) (factor u.contrast))
        mean := channelByte (grayMean params P) } := fun _ => rfl
  refine ⟨fun husable hwritten => ?_, issue_of_unusable 0x02000000 hready hstage⟩
  have hmean := canvasMean_range husable
  refine ⟨_, _, issue_of_written 0x02000000 hready hstage husable hwritten, ?_, ?_⟩
  · rw [grayMean_canvasRaster, channelByte_toNat hmean.1 hmean.2]
  · refine canvasIs_fill_mapChannels (fun x hx y hy c => ?_) fun x y c => blendRule_range ..
    rw [grayMean_canvasRaster, canvasRaster_channel s hx hy, blend_eq_blendRule]
    rfl

/-- Settles O19, channel by channel: the snapshot's pixel, and so its luminance, is the canvas's. -/
theorem colorBlendsAgainstTheLuminance : Obligations.ColorBlendsAgainstTheLuminance := by
  intro s hready
  refine canvasCommand_of_mapChannels (st := .color) hready rfl (fun _ => rfl) (fun _ x hx y hy c => ?_)
    fun x y c => blendRule_range ..
  rw [canvasRaster_pixel s hx hy, canvasRaster_channel s hx hy, luma_canvasPixel]
  exact blend_eq_blendRule ..

/-- Settles O20, channel by channel: the reference is smoothed from the canvas before the stage. -/
theorem sharpBlendsAgainstTheSmoothedCanvas : Obligations.SharpBlendsAgainstTheSmoothedCanvas := by
  intro s hready
  refine canvasCommand_of_mapChannels (st := .sharp) hready rfl (fun _ => rfl) (fun husable x hx y hy c => ?_)
    fun x y c => blendRule_range ..
  rw [smooth_canvasRaster husable, canvasRaster_channel s hx hy]
  exact blend_eq_blendRule ..

/-- Settles O21: the stage is the three-tap blur, and the taps keep a channel's range. -/
theorem denoiseBlursTheCanvas : Obligations.DenoiseBlursTheCanvas := by
  intro s hready
  exact canvasCommand_of_mapChannels (st := .denoise) hready rfl (fun _ => rfl)
    (fun husable x _ y _ c => gaussBlur_canvasRaster husable (by decide) x y c)
    fun x y c => blurRule_range s denoiseTap_nonneg (by decide) x y c

/-- Settles O22, channel by channel: the seven-tap blur of the snapshot, then the mask of R172. -/
theorem unsharpAmplifiesTheDifference : Obligations.UnsharpAmplifiesTheDifference := by
  intro s hready
  refine canvasCommand_of_mapChannels (st := .unsharp) hready rfl (fun _ => rfl) (fun husable x hx y hy c => ?_)
    fun x y c => unsharpRule_range _ _ _ (canvasChan_range s x y c)
  rw [canvasRaster_channel s hx hy, gaussBlur_canvasRaster husable (r := 3) (T := unsharpTap) (by decide)]
  exact unsharpMask_eq_unsharpRule ..

end Sys2Proof.Proofs
end

section
/-! PROOFS. `GAMMA` as a command: every channel through the table (R200). -/

namespace Sys2Proof.Proofs

open Sys2Proof.Machine Sys2Proof.Claims

/-- An entry of the table has 8 bits (R48). -/
theorem glutGet_range (glut : Mem 8) (v : Nat) :
    0 ≤ ((glutGet glut v).toNat : Int) ∧ ((glutGet glut v).toNat : Int) ≤ 255 := by
  have hbyte := (glutGet glut v).isLt
  omega

/-- Settles O23, channel by channel: the entry is selected by the snapshot's channel, and so by the canvas's. -/
theorem gammaMapsEveryChannel : Obligations.GammaMapsEveryChannel := by
  intro s hready
  refine canvasCommand_of_mapChannels (st := .gamma)
    (g := fun u P x y c => (glutGet u.glut (P.channel x y c).toNat).toNat)
    hready rfl (fun _ => rfl) (fun _ x hx y hy c => ?_) fun x y c => glutGet_range ..
  rw [canvasRaster_channel s hx hy]
  rfl

end Sys2Proof.Proofs
end

section
/-! PROOFS. The quantizer against the formulas of the rules: codes in range, errors in their bounds (R210, R213 to R216,
R223). -/

namespace Sys2Proof.Proofs

open Sys2Proof.Machine Sys2Proof.Claims

/-! ### The quantizer's operations are the rules' -/

theorem qmax_eq_topCode (c : Channel) : qmax c = topCode c := by cases c <;> rfl

theorem codeStep_eq_stepOf (c : Channel) : codeStep c = stepOf c := by cases c <;> rfl

theorem clampWork_eq_clampedRule (n : Int) : clampWork n = clampedRule n := by
  simp only [clampWork, clamp, workOne_params, clampedRule]
  omega

theorem quantize_eq_codeRule (c : Channel) (vc : Int) : quantize .halfUp c vc = codeRule c vc := by
  rw [quantize, qmax_eq_topCode, codeStep_eq_stepOf]
  rfl

theorem quantError_eq (c : Channel) (vc q : Int) : quantError c vc q = vc - q * stepOf c := by
  rw [quantError, codeStep_eq_stepOf]

/-! ### Ranges -/

theorem stepOf_pos (c : Channel) : 0 < stepOf c := by cases c <;> decide

theorem clampedRule_range (n : Int) : 0 ≤ clampedRule n ∧ clampedRule n ≤ 65280 := by
  unfold clampedRule
  omega

/-- Bounds of R223: a value that is not negative rounds to a code, and the top code cuts it. -/
theorem codeRule_range (c : Channel) {vc : Int} (h : 0 ≤ vc) : 0 ≤ codeRule c vc ∧ codeRule c vc ≤ topCode c := by
  cases c <;> simp only [codeRule, topCode, stepOf] <;> omega

/-- The error of R216 is at least that of a tie, and at most that of the largest value at the top code. -/
theorem codeRule_error_range (c : Channel) {vc : Int} (h : vc ≤ 65280) :
    -(stepOf c / 2) ≤ vc - codeRule c vc * stepOf c ∧
      vc - codeRule c vc * stepOf c ≤ 65280 - topCode c * stepOf c := by
  cases c <;> simp only [codeRule, topCode, stepOf] <;> omega

/-- Idempotence of R223: a whole number of steps rounds to itself. -/
theorem codeRule_mul_stepOf {c : Channel} {q : Int} (h : q ≤ topCode c) : codeRule c (q * stepOf c) = q := by
  rw [codeRule, ← rhu_eq, mul_comm q, rhu_mul_self (stepOf_pos c), min_eq_right h]

/-- Settles O57: the quantizer is the code rule, and its error what the code leaves of the value. -/
theorem quantizerBoundsAndIdempotence : Obligations.QuantizerBoundsAndIdempotence := by
  intro c
  simp only [quantize_eq_codeRule, quantError_eq]
  refine ⟨fun vc hlow hhigh => ?_, fun q _ hq => ⟨codeRule_mul_stepOf hq, sub_self _⟩⟩
  obtain ⟨hcode, htop⟩ := codeRule_range c hlow
  exact ⟨hcode, htop, codeRule_error_range c hhigh⟩

end Sys2Proof.Proofs
end

section
/-! PROOFS. What a scan over one channel reads: the plane at each cell holds the shares its visited neighbours have sent
(R211 to R217). -/

namespace Sys2Proof.Proofs

open Sys2Proof.Machine Sys2Proof.Claims

/-! ### One share, and the four of a cell (R217) -/

theorem index_inj {w x y x' y' : Nat} (hx : x < w) (hx' : x' < w) :
    y' * w + x' = y * w + x ↔ x' = x ∧ y' = y := by
  constructor
  · intro h
    have hmod := congrArg (· % w) h
    have hdiv := congrArg (· / w) h
    simp only [index_mod hx, index_mod hx', index_div hx, index_div hx'] at hmod hdiv
    exact ⟨hmod, hdiv⟩
  · rintro ⟨rfl, rfl⟩
    rfl

@[simp] theorem diffuseShare_size (w h x y : Nat) (e : Int) (plane : Array Int) (share : Int × Int × Int) :
    (diffuseShare w h x y e plane share).size = plane.size := by
  simp only [diffuseShare]
  split <;> simp

/-- A share arrives at the neighbour it is meant for and nowhere else; one for a neighbour outside the raster arrives
at no cell. -/
theorem diffuseShare_getD {w h x y : Nat} (hx : x < w) (hy : y < h) (x' y' : Nat) (e : Int) {plane : Array Int}
    (hsize : plane.size = w * h) (dx dy weight : Int) :
    (diffuseShare w h x' y' e plane (dx, dy, weight)).getD (y * w + x) 0 =
      plane.getD (y * w + x) 0 + if (x : Int) = x' + dx ∧ (y : Int) = y' + dy then rhu (e * weight) 16 else 0 := by
  simp only [diffuseShare]
  split
  · next hinside =>
    obtain ⟨u, hu⟩ := Int.eq_ofNat_of_zero_le hinside.1
    obtain ⟨v, hv⟩ := Int.eq_ofNat_of_zero_le hinside.2.2.1
    rw [hu, hv] at hinside ⊢
    have hcell : ((v * w + u : Int)).toNat = v * w + u := by norm_cast
    have htarget : ((x : Int) = u ∧ (y : Int) = v) ↔ v * w + u = y * w + x := by
      rw [index_inj hx (by omega)]
      omega
    have hlt := index_lt hx hy
    simp only [hcell, htarget, Array.getD_eq_getD_getElem?, Array.getElem?_setIfInBounds, hsize]
    split
    · next heq => simp [heq, hlt]
    · simp
  · next houtside => rw [if_neg (by omega), add_zero]

@[simp] theorem diffuse_size (w h x y : Nat) (e : Int) (plane : Array Int) :
    (diffuse w h x y e plane).size = plane.size := by
  simp [diffuse, diffusionShares]

theorem diffuse_getD {w h x y : Nat} (hx : x < w) (hy : y < h) (x' y' : Nat) (e : Int) {plane : Array Int}
    (hsize : plane.size = w * h) :
    (diffuse w h x' y' e plane).getD (y * w + x) 0 =
      plane.getD (y * w + x) 0 +
        (if x = x' + 1 ∧ y = y' then (e * 7 + 8) / 16 else 0) +
        (if x = x' + 1 ∧ y = y' + 1 then (e * 1 + 8) / 16 else 0) +
        (if x = x' ∧ y = y' + 1 then (e * 5 + 8) / 16 else 0) +
        (if x + 1 = x' ∧ y = y' + 1 then (e * 3 + 8) / 16 else 0) := by
  have hround (weight : Int) : rhu (e * weight) 16 = (e * weight + 8) / 16 := by rw [rhu_eq]; omega
  have heast : ((x : Int) = x' + 1 ∧ (y : Int) = y' + 0) ↔ x = x' + 1 ∧ y = y' := by omega
  have hsouthWest : ((x : Int) = x' + -1 ∧ (y : Int) = y' + 1) ↔ x + 1 = x' ∧ y = y' + 1 := by omega
  have hsouth : ((x : Int) = x' + 0 ∧ (y : Int) = y' + 1) ↔ x = x' ∧ y = y' + 1 := by omega
  have hsouthEast : ((x : Int) = x' + 1 ∧ (y : Int) = y' + 1) ↔ x = x' + 1 ∧ y = y' + 1 := by omega
  simp only [diffuse, diffusionShares, List.foldl_cons, List.foldl_nil]
  rw [diffuseShare_getD hx hy _ _ _ (by simp [hsize]), diffuseShare_getD hx hy _ _ _ (by simp [hsize]),
    diffuseShare_getD hx hy _ _ _ (by simp [hsize]), diffuseShare_getD hx hy _ _ _ hsize]
  simp only [hround, heast, hsouthWest, hsouth, hsouthEast]
  ring

/-! ### The plane along the scan (R212) -/

/-- One position of the scan: the code of the value read, and its error diffused. -/
theorem ditherCell_eq (c : Channel) (w h k : Nat) (plane : Array Int) :
    ditherCell c w h k plane =
      (codeRule c (clampedRule (plane.getD k 0)),
        diffuse w h (k % w) (k / w) (errorRule c (plane.getD k 0)) plane) := by
  simp only [ditherCell, show params.tie = .halfUp from rfl, quantize_eq_codeRule, quantError_eq,
    clampWork_eq_clampedRule, errorRule]

/-- The plane of a channel once the first `k` cells have been visited. -/
def planeAfter (c : Channel) (w h : Nat) (plane : Array Int) : Nat → Array Int
  | 0 => plane
  | k + 1 => (ditherCell c w h k (planeAfter c w h plane k)).2

theorem ditherScan_planeAfter (c : Channel) (w h : Nat) (plane : Array Int) (k m : Nat) :
    ditherScan c w h (List.range' k m) (planeAfter c w h plane k) =
      (List.range' k m).map fun j => codeRule c (clampedRule ((planeAfter c w h plane j).getD j 0)) := by
  induction m generalizing k with
  | zero => rfl
  | succ m ih =>
    rw [List.range'_succ, List.map_cons, ← ih (k + 1), ditherScan, planeAfter, ditherCell_eq]

@[simp] theorem planeAfter_size (c : Channel) (w h : Nat) (plane : Array Int) (k : Nat) :
    (planeAfter c w h plane k).size = plane.size := by
  induction k with
  | zero => rfl
  | succ k ih => rw [planeAfter, ditherCell_eq, diffuse_size, ih]

/-- What the scan of the canvas reads in `WORK[c]` at `(x, y)`. -/
def scanRead (s : State) (c : Channel) (x y : Nat) : Int :=
  (planeAfter c s.width s.height (workPlane s.canvasRaster c) (y * s.width + x)).getD (y * s.width + x) 0

/-- The codes of a channel are those of the values the scan reads, cell by cell in raster order. -/
theorem ditherCodes_canvasRaster (s : State) (c : Channel) :
    ditherCodes s.canvasRaster c =
      (List.range s.canvasCells).map fun k => codeRule c (clampedRule (scanRead s c (k % s.width) (k / s.width))) := by
  simp only [scanRead, Nat.div_add_mod', List.range_eq_range']
  rw [← ditherScan_planeAfter, ditherCodes, List.range_eq_range']
  rfl

/-! ### The shares received so far -/

/-- What a cell of `WORK[c]` holds when the first `k` cells have been visited: the shares of those of its neighbours that
stand before cell `k`. -/
def receivedBefore (s : State) (n : Channel → Nat → Nat → Int) (c : Channel) (x y k : Nat) : Int :=
  received s n c x y (decide (y * s.width + (x - 1) < k)) (decide ((y - 1) * s.width + (x - 1) < k))
    (decide ((y - 1) * s.width + x < k)) (decide ((y - 1) * s.width + (x + 1) < k))

theorem receivedBefore_zero (s : State) (n : Channel → Nat → Nat → Int) (c : Channel) (x y : Nat) :
    receivedBefore s n c x y 0 = 256 * s.canvasChan x y c := by
  simp [receivedBefore, received]

/-- In raster order all four neighbours that send shares to a cell stand before it. -/
theorem receivedBefore_self (s : State) (n : Channel → Nat → Nat → Int) (c : Channel) {x y : Nat} (hx : x < s.width) :
    receivedBefore s n c x y (y * s.width + x) = received s n c x y true true true true := by
  have hrow : 0 < y → y * s.width = (y - 1) * s.width + s.width := fun h => by
    rw [← Nat.succ_mul, Nat.succ_eq_add_one, Nat.sub_add_cancel h]
  have hwest : y * s.width + (x - 1) < y * s.width + x ∧ 0 < x ↔ 0 < x := by omega
  have hnorthWest : (y - 1) * s.width + (x - 1) < y * s.width + x ∧ 0 < x ∧ 0 < y ↔ 0 < x ∧ 0 < y := by omega
  have hnorth : (y - 1) * s.width + x < y * s.width + x ∧ 0 < y ↔ 0 < y := by omega
  have hnorthEast : (y - 1) * s.width + (x + 1) < y * s.width + x ∧ x + 1 < s.width ∧ 0 < y ↔
      x + 1 < s.width ∧ 0 < y := by omega
  simp only [receivedBefore, received, decide_eq_true_eq, hwest, hnorthWest, hnorth, hnorthEast, true_and]

/-- One neighbour's share, when cell `(x', y')` is visited next: it is new exactly if that is the neighbour. -/
theorem share_visited {w u v x' y' : Nat} {guard : Prop} [Decidable guard] (hguard : guard → u < w) (hx' : x' < w)
    (share : Nat → Nat → Int) :
    (if v * w + u < y' * w + x' + 1 ∧ guard then share u v else 0) =
      (if v * w + u < y' * w + x' ∧ guard then share u v else 0) +
        if guard ∧ u = x' ∧ v = y' then share x' y' else 0 := by
  by_cases hg : guard
  · have hsame := index_inj (y := y') (y' := v) hx' (hguard hg)
    by_cases h : u = x' ∧ v = y'
    · obtain ⟨rfl, rfl⟩ := h
      simp [hg]
    · have hiff : v * w + u < y' * w + x' + 1 ↔ v * w + u < y' * w + x' := by omega
      simp [h, hiff]
  · simp [hg]

/-- Visiting `(x', y')` adds its share to each of the cells it is a neighbour of. -/
theorem receivedBefore_succ (s : State) (n : Channel → Nat → Nat → Int) (c : Channel) {x x' : Nat} (y y' : Nat)
    (hx : x < s.width) (hx' : x' < s.width) :
    receivedBefore s n c x y (y' * s.width + x' + 1) =
      receivedBefore s n c x y (y' * s.width + x') +
        (if x = x' + 1 ∧ y = y' then shareRule c 7 (n c x' y') else 0) +
        (if x = x' + 1 ∧ y = y' + 1 then shareRule c 1 (n c x' y') else 0) +
        (if x = x' ∧ y = y' + 1 then shareRule c 5 (n c x' y') else 0) +
        (if x + 1 = x' ∧ y = y' + 1 then shareRule c 3 (n c x' y') else 0) := by
  have hwest : (0 < x ∧ x - 1 = x' ∧ y = y') ↔ x = x' + 1 ∧ y = y' := by omega
  have hnorthWest : ((0 < x ∧ 0 < y) ∧ x - 1 = x' ∧ y - 1 = y') ↔ x = x' + 1 ∧ y = y' + 1 := by omega
  have hnorth : (0 < y ∧ x = x' ∧ y - 1 = y') ↔ x = x' ∧ y = y' + 1 := by omega
  have hnorthEast : ((x + 1 < s.width ∧ 0 < y) ∧ x + 1 = x' ∧ y - 1 = y') ↔ x + 1 = x' ∧ y = y' + 1 := by omega
  simp only [receivedBefore, received, decide_eq_true_eq]
  rw [share_visited (guard := 0 < x) (by omega) hx' fun u v => shareRule c 7 (n c u v),
    share_visited (guard := 0 < x ∧ 0 < y) (by omega) hx' fun u v => shareRule c 1 (n c u v),
    share_visited (guard := 0 < y) (fun _ => hx) hx' fun u v => shareRule c 5 (n c u v),
    share_visited (guard := x + 1 < s.width ∧ 0 < y) (·.1) hx' fun u v => shareRule c 3 (n c u v)]
  simp only [hwest, hnorthWest, hnorth, hnorthEast]
  ring

/-! ### The invariant of the scan -/

theorem workPlane_size (s : State) (c : Channel) : (workPlane s.canvasRaster c).size = s.width * s.height := by
  simp [workPlane, State.canvasRaster, State.canvasCells]

theorem workPlane_getD (s : State) (c : Channel) {x y : Nat} (hx : x < s.width) (hy : y < s.height) :
    (workPlane s.canvasRaster c).getD (y * s.width + x) 0 = 256 * s.canvasChan x y c := by
  have hlt := index_lt hx hy
  simp [workPlane, State.canvasRaster, State.canvasCells, State.canvasChan, State.canvasPixel, hlt]

/-- After any number of positions every cell holds what its visited neighbours have sent it, by induction on that
number. -/
theorem planeAfter_getD (s : State) (c : Channel) {x y : Nat} (hx : x < s.width) (hy : y < s.height) (k : Nat) :
    (planeAfter c s.width s.height (workPlane s.canvasRaster c) k).getD (y * s.width + x) 0 =
      receivedBefore s (scanRead s) c x y k := by
  induction k with
  | zero => rw [planeAfter, workPlane_getD s c hx hy, receivedBefore_zero]
  | succ k ih =>
    have hmod : k % s.width < s.width := Nat.mod_lt k (by omega)
    have hread : (planeAfter c s.width s.height (workPlane s.canvasRaster c) k).getD k 0 =
        scanRead s c (k % s.width) (k / s.width) := by rw [scanRead, Nat.div_add_mod']
    have hstep := receivedBefore_succ s (scanRead s) c y (k / s.width) hx hmod
    rw [Nat.div_add_mod'] at hstep
    rw [planeAfter, ditherCell_eq, diffuse_getD hx hy _ _ _ (by rw [planeAfter_size, workPlane_size]), ih, hread, hstep]
    rfl

/-- The values the scan reads satisfy the diffusion equations. -/
theorem diffused_scanRead (s : State) : diffused s (scanRead s) := by
  intro c x hx y hy
  rw [← receivedBefore_self s _ c hx, ← planeAfter_getD s c hx hy, scanRead]

end Sys2Proof.Proofs
end

section
/-! PROOFS. The bounds of R222 and the packed word of R215. -/

namespace Sys2Proof.Proofs

open Sys2Proof.Machine Sys2Proof.Claims

/-! ### The bounds -/

theorem errorRule_range (c : Channel) (n : Int) : -1024 ≤ errorRule c n ∧ errorRule c n ≤ 1792 := by
  have herror := codeRule_error_range c (clampedRule_range n).2
  cases c <;> simp only [errorRule, stepOf, topCode] at * <;> omega

/-- A share of weight `weight` over 16 keeps that part of the bounds of the error: 1792 and 1024 are multiples of 16, so
the rounding adds nothing. -/
theorem shareRule_range (c : Channel) (n : Int) {weight : Int} (h : 0 ≤ weight) :
    -64 * weight ≤ shareRule c weight n ∧ shareRule c weight n ≤ 112 * weight := by
  obtain ⟨hlow, hhigh⟩ := errorRule_range c n
  have hprodLow := mul_le_mul_of_nonneg_right hlow h
  have hprodHigh := mul_le_mul_of_nonneg_right hhigh h
  unfold shareRule
  omega

theorem ite_shareRule_range (c : Channel) (n : Int) {weight : Int} (h : 0 ≤ weight) (p : Prop) [Decidable p] :
    -64 * weight ≤ (if p then shareRule c weight n else 0) ∧
      (if p then shareRule c weight n else 0) ≤ 112 * weight := by
  split
  · exact shareRule_range c n h
  · omega

/-- Whichever shares a `WORK` cell has received, it stays in the bounds of R222: the four weights sum to 16. -/
theorem received_range (s : State) (n : Channel → Nat → Nat → Int) (c : Channel) (x y : Nat)
    (west northWest north northEast : Bool) :
    -1024 ≤ received s n c x y west northWest north northEast ∧
      received s n c x y west northWest north northEast ≤ 67072 := by
  have hchan := canvasChan_range s x y c
  have hwest := ite_shareRule_range c (n c (x - 1) y) (weight := 7) (by decide) (west = true ∧ 0 < x)
  have hnorthWest := ite_shareRule_range c (n c (x - 1) (y - 1)) (weight := 1) (by decide)
    (northWest = true ∧ 0 < x ∧ 0 < y)
  have hnorth := ite_shareRule_range c (n c x (y - 1)) (weight := 5) (by decide) (north = true ∧ 0 < y)
  have hnorthEast := ite_shareRule_range c (n c (x + 1) (y - 1)) (weight := 3) (by decide)
    (northEast = true ∧ x + 1 < s.width ∧ 0 < y)
  simp only [received]
  constructor <;> linarith

theorem scanRead_range (s : State) (c : Channel) {x y : Nat} (hx : x < s.width) (hy : y < s.height) :
    -1024 ≤ scanRead s c x y ∧ scanRead s c x y ≤ 67072 := by
  rw [diffused_scanRead s c x hx y hy]
  exact received_range s (scanRead s) c x y true true true true

/-! ### The packed word -/

/-- The fields of `pack565` do not overlap: for codes in range the word is their weighted sum (R106, R215). -/
theorem pack565_toNat {r g b : Int} (hr : 0 ≤ r ∧ r ≤ 31) (hg : 0 ≤ g ∧ g ≤ 63) (hb : 0 ≤ b ∧ b ≤ 31) :
    ((pack565 r g b).toNat : Int) = r * 2048 + g * 32 + b := by
  obtain ⟨r, rfl⟩ := Int.eq_ofNat_of_zero_le hr.1
  obtain ⟨g, rfl⟩ := Int.eq_ofNat_of_zero_le hg.1
  obtain ⟨b, rfl⟩ := Int.eq_ofNat_of_zero_le hb.1
  have hrg : r <<< 11 ||| g <<< 5 = r <<< 11 + g <<< 5 :=
    (Nat.shiftLeft_add_eq_or_of_lt (by rw [Nat.shiftLeft_eq]; omega) r).symm
  have hrgb : (r * 64 + g) <<< 5 ||| b = (r * 64 + g) <<< 5 + b := (Nat.shiftLeft_add_eq_or_of_lt (by omega) _).symm
  have hred : r <<< 11 % 2 ^ 16 = r <<< 11 := Nat.mod_eq_of_lt (by rw [Nat.shiftLeft_eq]; omega)
  have hgreen : g <<< 5 % 2 ^ 16 = g <<< 5 := Nat.mod_eq_of_lt (by rw [Nat.shiftLeft_eq]; omega)
  have hjoin : r <<< 11 + g <<< 5 = (r * 64 + g) <<< 5 := by simp only [Nat.shiftLeft_eq]; omega
  have hword : (pack565 r g b).toNat = (r * 64 + g) <<< 5 + b := by
    simp only [pack565, BitVec.ofInt_natCast, BitVec.toNat_or, BitVec.toNat_shiftLeft, BitVec.toNat_ofNat]
    rw [Nat.mod_eq_of_lt (show r < 2 ^ 16 by omega), Nat.mod_eq_of_lt (show g < 2 ^ 16 by omega),
      Nat.mod_eq_of_lt (show b < 2 ^ 16 by omega), hred, hgreen, hrg, hjoin, hrgb]
  rw [hword, Nat.shiftLeft_eq]
  push_cast
  ring

end Sys2Proof.Proofs
end

section
/-! PROOFS. `DITHER` as a command (R210 to R218, R220, R222). -/

namespace Sys2Proof.Proofs

open Sys2Proof.Machine Sys2Proof.Claims

/-- The packed codes of the three values the scan reads at `(x, y)` (R215). -/
def packedRead (s : State) (x y : Nat) : Packed :=
  pack565 (codeRule .red (clampedRule (scanRead s .red x y))) (codeRule .green (clampedRule (scanRead s .green x y)))
    (codeRule .blue (clampedRule (scanRead s .blue x y)))

theorem packedRead_toNat (s : State) (x y : Nat) :
    ((packedRead s x y).toNat : Int) =
      codeRule .red (clampedRule (scanRead s .red x y)) * 2048 +
        codeRule .green (clampedRule (scanRead s .green x y)) * 32 +
        codeRule .blue (clampedRule (scanRead s .blue x y)) := by
  have hcode (c : Channel) := codeRule_range c (clampedRule_range (scanRead s c x y)).1
  exact pack565_toNat (hcode .red) (hcode .green) (hcode .blue)

theorem ditherCells_canvasRaster (s : State) :
    ditherCells s.canvasRaster = (List.range s.canvasCells).map fun k => packedRead s (k % s.width) (k / s.width) := by
  refine List.ext_getElem (by simp [ditherCells, ditherCodes_canvasRaster]) fun k _ _ => ?_
  simp [ditherCells, ditherCodes_canvasRaster, packedRead]

/-- `OUT` after the stage: the packed words on the canvas, unchanged at or beyond `W*H` (R215, R220). -/
theorem get_fill_ditherCells (s : State) (out : Mem 16) :
    (∀ x < s.width, ∀ y < s.height,
      (out.fill (ditherCells s.canvasRaster)).get (y * s.width + x) = some (packedRead s x y)) ∧
    ∀ k, s.width * s.height ≤ k → (out.fill (ditherCells s.canvasRaster)).get k = out.get k := by
  simp only [ditherCells_canvasRaster, Mem.get_fill, List.length_map, List.length_range, State.canvasCells]
  constructor
  · intro x hx y hy
    have hlt := index_lt hx hy
    simp [hlt, index_mod hx, index_div hx]
  · intro k hk
    rw [if_neg (by omega)]

/-- Settles O24: the values read are those of the scan, which solve the diffusion equations and pack to the cells
written. -/
theorem ditherDiffusesTheError : Obligations.DitherDiffusesTheError := by
  intro s hready
  have hstage : ∀ u, runStage .dither u = onCanvas u fun P => { u with out := u.out.fill (ditherCells P) } :=
    fun _ => rfl
  refine ⟨fun husable hwritten => ?_, issue_of_unusable 0x09000000 hready hstage⟩
  obtain ⟨hinside, hbeyond⟩ := get_fill_ditherCells s s.out
  refine ⟨_, scanRead s, issue_of_written 0x09000000 hready hstage husable hwritten, diffused_scanRead s,
    fun x hx y hy => ⟨fun c => ?_, ?_⟩, hbeyond⟩
  · obtain ⟨hreadLow, hreadHigh⟩ := scanRead_range s c hx hy
    obtain ⟨herrorLow, herrorHigh⟩ := errorRule_range c (scanRead s c x y)
    obtain ⟨heastLow, heastHigh⟩ := shareRule_range c (scanRead s c x y) (weight := 7) (by decide)
    obtain ⟨hsouthEastLow, hsouthEastHigh⟩ := shareRule_range c (scanRead s c x y) (weight := 1) (by decide)
    obtain ⟨hsouthLow, hsouthHigh⟩ := shareRule_range c (scanRead s c x y) (weight := 5) (by decide)
    obtain ⟨hsouthWestLow, hsouthWestHigh⟩ := shareRule_range c (scanRead s c x y) (weight := 3) (by decide)
    exact ⟨hreadLow, hreadHigh, herrorLow, herrorHigh, heastLow, heastHigh, hsouthEastLow, hsouthEastHigh, hsouthLow,
      hsouthHigh, hsouthWestLow, hsouthWestHigh, received_range s (scanRead s) c x y⟩
  · rw [← packedRead_toNat]
    exact congrArg (Option.map _) (hinside x hx y hy)

end Sys2Proof.Proofs
end

section
/-! PROOFS. The `CMD` write and a whole command, case by case (R240, R242, R247, R248). -/

namespace Sys2Proof.Proofs

open Sys2Proof Sys2Proof.Machine

variable {s : State} {w : Word} {i : Instr}

/-! ### The `CMD` write -/

theorem hostWrite_cmd (s : State) (w : Word) : hostWrite s .word 0x008 w = writeCommand s w :=
  hostWrite_of_regAt s w regAt_cmd

theorem writeCommand_of_busy (hbusy : s.busy = true) (w : Word) : writeCommand s w = setOvr s :=
  if_pos hbusy

theorem writeCommand_of_err (hidle : s.busy = false) (herr : s.err = true) (hw : w ≠ encode .srst) :
    writeCommand s w = setOvr s := by
  rw [writeCommand, hidle, if_neg Bool.false_ne_true, if_pos ⟨herr, hw⟩]

theorem writeCommand_of_illegal (h : s.ready) {why : Illegal} (hw : decode w = .illegal why) :
    writeCommand s w = raiseIllegalCmd s := by
  simp [writeCommand, h.1, h.2, hw]

theorem writeCommand_srst (hidle : s.busy = false) : writeCommand s (encode .srst) = softReset s := by
  rw [writeCommand, hidle, if_neg Bool.false_ne_true, if_neg fun h => h.2 rfl]
  rfl

theorem hostWrite_srst (hidle : s.busy = false) : hostWrite s .word 0x008 0x7F000000 = softReset s :=
  (hostWrite_cmd s _).trans (writeCommand_srst hidle)

theorem writeCommand_of_decode (h : s.ready) (hw : decode w = .instr i) (hi : i ≠ .srst) :
    writeCommand s w = accept s w (stageSet i) := by
  cases i with
  | srst => exact absurd rfl hi
  | _ => simp [writeCommand, h.1, h.2, hw]

/-! ### A whole command -/

/-- A command other than `SRST` is issued with its own word and stage set (R101, R102). -/
theorem exec_eq_issue (s : State) (hwf : i.wellFormed = true) (hi : i ≠ .srst) :
    exec i s = issue s (encode i) (stageSet i) := by
  cases i with
  | run operand => exact if_pos (beq_iff_eq.1 hwf)
  | srst => exact absurd rfl hi
  | _ => rfl

/-- A term with a bit of `RSV` set is presented as the illegal word it is (R103). -/
theorem exec_eq_presentIllegal (s : State) (hwf : i.wellFormed = false) : exec i s = .next (presentIllegal s) := by
  cases i with
  | run operand => exact if_neg (beq_eq_false_iff_ne.1 hwf)
  | _ => cases hwf

theorem issue_of_discarded (h : s.busy = true ∨ s.err = true) (w : Word) (stages : BitVec 9) :
    issue s w stages = .next (setOvr s) := by
  rcases issue_cases s w stages with ⟨_, e⟩ | ⟨_, _, e⟩ | ⟨hidle, herr, _⟩
  · exact e
  · exact e
  · simp [hidle, herr] at h

theorem presentIllegal_of_discarded (h : s.busy = true ∨ s.err = true) : presentIllegal s = setOvr s := by
  rcases h with hbusy | herr
  · exact if_pos hbusy
  · rw [presentIllegal, herr, if_pos rfl, ite_self]

/-- A busy block and a block with an error recorded discard every command but `SRST` (R247, R248). -/
theorem exec_of_discarded (h : s.busy = true ∨ s.err = true) (hi : i ≠ .srst) : exec i s = .next (setOvr s) := by
  cases hwf : i.wellFormed with
  | true => rw [exec_eq_issue s hwf hi, issue_of_discarded h]
  | false => rw [exec_eq_presentIllegal s hwf, presentIllegal_of_discarded h]

theorem exec_srst_of_busy (hbusy : s.busy = true) : exec .srst s = .next (setOvr s) := if_pos hbusy

theorem exec_srst_of_idle (hidle : s.busy = false) : exec .srst s = .next (softReset s) := by
  rw [exec, execSrst, hidle, if_neg Bool.false_ne_true]

/-- A ready block accepts a command and runs its stage set (R240, R241). -/
theorem exec_of_ready (h : s.ready) (hwf : i.wellFormed = true) (hi : i ≠ .srst) :
    exec i s = engineRun commandSteps (accept s (encode i) (stageSet i)) := by
  obtain ⟨hidle, herr⟩ := h
  rw [exec_eq_issue s hwf hi, issue, hidle, herr, if_neg Bool.false_ne_true, if_neg Bool.false_ne_true]

theorem engineStep_of_nothing_pending (h : s.pend = 0) : engineStep s = .next (complete s) := by
  rw [engineStep, h, lowestPending_zero]

/-- A command with no stage completes at once (R242). -/
theorem exec_of_no_stages (h : s.ready) (hwf : i.wellFormed = true) (hi : i ≠ .srst) (hset : stageSet i = 0) :
    exec i s = .next { s with cur := encode i, pend := 0, done := true, busy := false } := by
  rw [exec_of_ready h hwf hi, hset]
  exact engineRun_complete 9 _ rfl rfl

end Sys2Proof.Proofs
end

section
/-! PROOFS. The command mechanism: acceptance, discarding, completion, `NOP`, `SRST` and the `STATUS` write (R240, R242,
R243, R245, R247 to R249). -/

namespace Sys2Proof.Proofs

open Sys2Proof Sys2Proof.Machine

/-- Settles O8, case by case of R240. -/
theorem cmdWriteHasFourCases : Obligations.CmdWriteHasFourCases := by
  intro s w
  rw [hostWrite_cmd]
  refine ⟨fun hbusy => writeCommand_of_busy hbusy w, fun hidle herr hw => writeCommand_of_err hidle herr hw,
    ?_, ?_, ?_⟩
  · rintro hidle herr ⟨why, hw⟩
    exact writeCommand_of_illegal ⟨hidle, herr⟩ hw
  · rintro hidle rfl
    exact writeCommand_srst hidle
  · intro i hidle herr hw hi
    exact writeCommand_of_decode ⟨hidle, herr⟩ hw hi

/-- Settles O9: the first case of R240 does not look at the word. -/
theorem busyDiscardsEveryCommand : Obligations.BusyDiscardsEveryCommand := by
  intro s hbusy
  refine ⟨fun w => (hostWrite_cmd s w).trans (writeCommand_of_busy hbusy w), fun i => ?_⟩
  by_cases hi : i = .srst
  · rw [hi]
    exact exec_srst_of_busy hbusy
  · exact exec_of_discarded (.inl hbusy) hi

/-- Settles O10: the second case of R240, which `SRST` passes. -/
theorem errorDiscardsAllButSrst : Obligations.ErrorDiscardsAllButSrst := by
  intro s hidle herr
  refine ⟨fun w hw => (hostWrite_cmd s w).trans (writeCommand_of_err hidle herr hw),
    fun i hi => exec_of_discarded (.inr herr) hi, ?_⟩
  rw [hostWrite_srst hidle]
  rfl

/-- Settles O11: the completion of R242, and the interrupt it raises. -/
theorem engineStepCompletes : Obligations.EngineStepCompletes := by
  intro s hpend
  refine ⟨_, engineStep_of_nothing_pending hpend, rfl, fun hie => ?_⟩
  simp [State.irq, complete, hie]

/-- Settles O14: `NOP` is a command with no stage. -/
theorem nopOnlyCompletes : Obligations.NopOnlyCompletes :=
  fun _ hready => exec_of_no_stages hready rfl nofun rfl

/-- Settles O28: `SRST` is its `CMD` write, and that is the reset of the registers. -/
theorem srstRestoresResetValues : Obligations.SrstRestoresResetValues := by
  intro s
  refine ⟨fun hidle => ?_, exec_srst_of_busy⟩
  rw [hostWrite_srst hidle]
  exact ⟨exec_srst_of_idle hidle, rfl⟩

/-- Settles O35: the write flag by flag; it leaves `PEND` alone, so the engine completes after it as before. -/
theorem statusWriteClearsNamedFlags : Obligations.StatusWriteClearsNamedFlags := by
  intro s d
  have hwrite := (hostWrite_of_regAt s d regAt_status).trans (writeStatus_eq s d)
  rw [hwrite]
  exact ⟨rfl, fun hpend => ⟨_, engineStep_of_nothing_pending hpend, rfl⟩⟩

end Sys2Proof.Proofs
end

section
/-! PROOFS. The engine never reads `CUR`, and a stage reads and writes none of `CUR`, `PEND`, `DONE`, `BUSY` (R88,
R241): a stage does the same in whatever command it runs (R244, R246). -/

namespace Sys2Proof.Proofs

open Sys2Proof Sys2Proof.Machine Sys2Proof.Claims

/-- A finished stage's state changed by `f`; an error or an unwritten cell as it is. -/
def mapFinished (f : State → State) : StageResult → StageResult
  | .finished t => .finished (f t)
  | .error code => .error code
  | .unwritten m => .unwritten m

/-- `s` with other values in the four fields a command is sequenced by. -/
def sequenced (cur : Word) (pend : BitVec 9) (done busy : Bool) (s : State) : State :=
  { s with cur := cur, pend := pend, done := done, busy := busy }

section
variable (st : Stage) (s : State) (w : Word)

theorem onCanvas_sequenced (pend : BitVec 9) (done busy : Bool) {write write' : Raster → State}
    (hwrite : ∀ P, write' P = sequenced w pend done busy (write P)) :
    onCanvas (sequenced w pend done busy s) write' = mapFinished (sequenced w pend done busy) (onCanvas s write) := by
  have hlegal : (sequenced w pend done busy s).canvasLegal = s.canvasLegal := rfl
  have hsnapshot : (sequenced w pend done busy s).snapshot = s.snapshot := rfl
  rw [onCanvas, onCanvas, hlegal, hsnapshot]
  cases s.canvasLegal with
  | false => rfl
  | true =>
    cases s.snapshot with
    | none => rfl
    | some P => exact congrArg StageResult.finished (hwrite P)

theorem stageCompose_sequenced (pend : BitVec 9) (done busy : Bool) :
    stageCompose (sequenced w pend done busy s) = mapFinished (sequenced w pend done busy) (stageCompose s) := by
  have herror : composeError (sequenced w pend done busy s) = composeError s := rfl
  have hsource : (sequenced w pend done busy s).sourceImage = s.sourceImage := rfl
  rw [stageCompose, stageCompose, herror, hsource]
  cases composeError s with
  | some code => rfl
  | none => cases s.sourceImage <;> rfl

/-- A stage neither reads nor writes the sequencing fields. -/
theorem runStage_sequenced (pend : BitVec 9) (done busy : Bool) :
    runStage st (sequenced w pend done busy s) = mapFinished (sequenced w pend done busy) (runStage st s) := by
  cases st with
  | compose => exact stageCompose_sequenced s w pend done busy
  | _ => exact onCanvas_sequenced s w pend done busy fun _ => rfl

theorem runStage_cur :
    runStage st { s with cur := w } = mapFinished (fun t => { t with cur := w }) (runStage st s) := by
  have hseq := runStage_sequenced st s w s.pend s.done s.busy
  cases hr : runStage st s with
  | finished t =>
    rw [hr] at hseq
    refine hseq.trans (congrArg StageResult.finished ?_)
    rw [runStage_frame hr]
    rfl
  | error code => exact hseq.trans (congrArg _ hr)
  | unwritten m => exact hseq.trans (congrArg _ hr)

theorem stageStep_cur :
    stageStep { s with cur := w } st = mapNext (fun t => { t with cur := w }) (stageStep s st) := by
  have hrun := runStage_cur st { s with stage := st.id } w
  rw [stageStep, stageStep, hrun]
  cases runStage st { s with stage := st.id } <;> rfl

theorem engineStep_cur : engineStep { s with cur := w } = mapNext (fun t => { t with cur := w }) (engineStep s) := by
  rw [engineStep, engineStep]
  cases lowestPending s.pend with
  | none => rfl
  | some st => exact stageStep_cur st s w

/-- Whatever word was accepted, the engine does the same with what is pending. -/
theorem engineRun_cur (n : Nat) :
    engineRun n { s with cur := w } = mapNext (fun t => { t with cur := w }) (engineRun n s) := by
  induction n generalizing s with
  | zero => rfl
  | succ n ih =>
    rcases Bool.eq_false_or_eq_true s.busy with hbusy | hidle
    · rw [engineRun_succ n s hbusy, engineRun_succ n { s with cur := w } hbusy, engineStep_cur]
      cases engineStep s with
      | next t => exact ih t
      | fault r => rfl
      | refused r => rfl
    · rw [engineRun_idle _ s hidle]
      exact engineRun_idle _ { s with cur := w } hidle

end

/-! ### A stage's own command, and `RUN` with its bit (R102) -/

/-- The word of a single-stage command decodes to it. -/
theorem decode_stage_word (st : Stage) :
    decode (BitVec.ofNat 32 ((st.bit + 1) * 2 ^ 24)) = .instr (commandOf st) := by cases st <;> rfl

/-- The word of `RUN` with the stage's mask bit. -/
theorem decode_run_word (st : Stage) :
    decode (BitVec.ofNat 32 (2 ^ 28 + 2 ^ st.bit)) = .instr (.run (BitVec.ofNat 24 (2 ^ st.bit))) := by
  cases st <;> rfl

theorem run_wellFormed (st : Stage) : (Instr.run (BitVec.ofNat 24 (2 ^ st.bit))).wellFormed = true := by
  cases st <;> rfl

theorem operandMask_two_pow (st : Stage) : operandMask (BitVec.ofNat 24 (2 ^ st.bit)) = st.only := by
  cases st <;> rfl

theorem stageSet_commandOf (st : Stage) : stageSet (commandOf st) = st.only := by cases st <;> rfl

theorem commandOf_wellFormed (st : Stage) : (commandOf st).wellFormed = true := by cases st <;> rfl

theorem commandOf_ne_srst (st : Stage) : commandOf st ≠ .srst := by cases st <;> nofun

/-- Settles O29: both are accepted with the same stage pending and another `CUR`, which the engine does not read. -/
theorem singleStageEqualsRun : Obligations.SingleStageEqualsRun := by
  intro st s hready
  constructor
  · intro n
    rw [hostWrite_cmd, hostWrite_cmd, writeCommand_of_decode hready (decode_stage_word st) (commandOf_ne_srst st),
      writeCommand_of_decode hready (decode_run_word st) nofun, stageSet_commandOf, stageSet, operandMask_two_pow]
    exact engineRun_cur (accept s _ st.only) _ n
  · rw [exec_of_ready hready (commandOf_wellFormed st) (commandOf_ne_srst st),
      exec_of_ready hready (run_wellFormed st) nofun, stageSet_commandOf, stageSet, operandMask_two_pow]
    exact engineRun_cur (accept s _ st.only) _ commandSteps

end Sys2Proof.Proofs
end

section
/-! PROOFS. `RUN` against the commands of its stages (R244): one stage of the engine's run is one single-stage
command. -/

namespace Sys2Proof.Proofs

open Sys2Proof Sys2Proof.Machine Sys2Proof.Claims

/-! ### The stages of a mask -/

theorem stagesOf_length_le (mask : BitVec 9) : (stagesOf mask).length ≤ 9 := List.length_filter_le _ Stage.all

theorem stagesOf_nodup (mask : BitVec 9) : (stagesOf mask).Nodup :=
  List.Nodup.filter _ (show Stage.all.Nodup by decide)

theorem head?_stagesOf (mask : BitVec 9) : (stagesOf mask).head? = lowestPending mask := List.head?_filter

theorem stagesOf_eq_nil_iff (mask : BitVec 9) : stagesOf mask = [] ↔ mask = 0 := by
  rw [← List.head?_eq_none_iff, head?_stagesOf, lowestPending_eq_none]

theorem stagesOf_clearPending (mask : BitVec 9) (st : Stage) :
    stagesOf (clearPending mask st) = (stagesOf mask).erase st := by
  rw [(stagesOf_nodup mask).erase_eq_filter, stagesOf, stagesOf, List.filter_filter]
  refine List.filter_congr fun u _ => ?_
  have hne : (u.bit ≠ st.bit) ↔ u ≠ st := not_congr ⟨Stage.bit_injective, congrArg Stage.bit⟩
  rw [clearPending_getLsbD mask st u.bit u.bit_lt, Bool.eq_iff_iff]
  simp [hne, and_comm]

/-- The first stage of a mask is the lowest pending one, and clearing its bit leaves the others. -/
theorem stagesOf_eq_cons {mask : BitVec 9} {st : Stage} {sts : List Stage} (h : stagesOf mask = st :: sts) :
    lowestPending mask = some st ∧ stagesOf (clearPending mask st) = sts := by
  constructor
  · rw [← head?_stagesOf, h, List.head?_cons]
  · rw [stagesOf_clearPending, h, List.erase_cons_head]

/-! ### One stage -/

section
variable {s : State} (w : Word) {mask : BitVec 9} {st : Stage}

/-- What the stage does in the first engine step of an accepted command, by what it does outside any command. -/
theorem engineStep_accept (s : State) (hlow : lowestPending mask = some st) :
    engineStep (accept s w mask) =
      match runStage st { s with stage := st.id } with
      | .finished t => .next (accept t w (clearPending mask st))
      | .error code => .next (raiseStageError (accept { s with stage := st.id } w mask) code st)
      | .unwritten m => .fault (.unwrittenCell m) := by
  have hrun : runStage st { accept s w mask with stage := st.id } =
      mapFinished (sequenced w mask false true) (runStage st { s with stage := st.id }) :=
    runStage_sequenced st { s with stage := st.id } w mask false true
  rw [engineStep, accept_pend, hlow]
  simp only [stageStep, hrun]
  cases runStage st { s with stage := st.id } <;> rfl

/-- The same of the stage's own command. -/
theorem exec_commandOf (st : Stage) (hready : s.ready) :
    exec (commandOf st) s =
      match runStage st { s with stage := st.id } with
      | .finished t => .next { t with cur := encode (commandOf st), pend := 0, done := true, busy := false }
      | .error code =>
        .next (raiseStageError (accept { s with stage := st.id } (encode (commandOf st)) st.only) code st)
      | .unwritten m => .fault (.unwrittenCell m) := by
  rw [exec_of_ready hready (commandOf_wellFormed st) (commandOf_ne_srst st), stageSet_commandOf,
    show commandSteps = 9 + 1 from rfl, engineRun_succ 9 _ rfl, engineStep_accept _ s (lowestPending_only st),
    clearPending_only]
  cases runStage st { s with stage := st.id } with
  | finished t => exact engineRun_complete 8 _ rfl rfl
  | error code => exact engineRun_idle 9 _ rfl
  | unwritten m => rfl

end

/-! ### The run -/

/-- A single-stage command that records no error is followed by the next one. -/
theorem runSingles_cons_of_next {s t : State} {st : Stage} (sts : List Stage) (h : exec (commandOf st) s = .next t)
    (herr : t.err = false) : runSingles (st :: sts) s = runSingles sts t := by
  rw [runSingles, h]
  exact if_neg (by simp [herr])

/-- The engine's run of a stage set, against the single-stage commands of its stages. A run of no stage adds nothing to
the state only where a command has just completed. -/
theorem engineRun_accept_eq_runSingles (w : Word) (sts : List Stage) {mask : BitVec 9} (hsts : stagesOf mask = sts)
    {s : State} (hready : s.ready) (hnil : sts = [] → s.pend = 0 ∧ s.done = true) {n : Nat} (hn : sts.length < n) :
    engineRun n (accept s w mask) = mapNext (fun t => { t with cur := w }) (runSingles sts s) := by
  induction sts generalizing mask s n with
  | nil =>
    obtain ⟨n, rfl⟩ := Nat.exists_eq_add_one_of_ne_zero (Nat.ne_zero_of_lt hn)
    obtain ⟨hpend, hdone⟩ := hnil rfl
    have hmask : mask = 0 := (stagesOf_eq_nil_iff mask).1 hsts
    rw [engineRun_complete n _ rfl hmask, runSingles, mapNext]
    simp only [accept, hmask, hpend, hdone, hready.1]
  | cons st sts ih =>
    obtain ⟨n, rfl⟩ := Nat.exists_eq_add_one_of_ne_zero (Nat.ne_zero_of_lt hn)
    obtain ⟨hlow, hrest⟩ := stagesOf_eq_cons hsts
    have hcmd := exec_commandOf st hready
    rw [engineRun_succ n _ rfl, engineStep_accept w s hlow]
    cases hr : runStage st { s with stage := st.id } with
    | finished t =>
      rw [hr] at hcmd
      have herr : t.err = false := by
        rw [runStage_frame hr]
        exact hready.2
      rw [runSingles_cons_of_next sts hcmd herr]
      exact ih hrest (s := { t with cur := encode (commandOf st), pend := 0, done := true, busy := false })
        ⟨rfl, herr⟩ (fun _ => ⟨rfl, rfl⟩) (Nat.lt_of_succ_lt_succ hn)
    | error code =>
      rw [runSingles, hcmd, hr]
      exact engineRun_idle n _ rfl
    | unwritten m =>
      rw [runSingles, hcmd, hr]
      rfl

/-- Settles O25: `RUN` is accepted with its mask, the engine takes the stages in ascending id, and each does what its
own command does. -/
theorem runIsItsStagesInOrder : Obligations.RunIsItsStagesInOrder := by
  intro s operand hready hreserved
  have hwf : (Instr.run operand).wellFormed = true := beq_iff_eq.2 hreserved
  refine ⟨fun hmask => ?_, fun hmask => exec_of_no_stages hready hwf nofun hmask⟩
  rw [exec_of_ready hready hwf nofun]
  exact engineRun_accept_eq_runSingles _ _ rfl hready (fun h => absurd ((stagesOf_eq_nil_iff _).1 h) hmask)
    (Nat.lt_succ_of_le (stagesOf_length_le _))

end Sys2Proof.Proofs
end

section
/-! PROOFS. The entry of ILLEGAL_CMD, and the interrupt output with its enables (R32, R262, R273). -/

namespace Sys2Proof.Proofs

open Sys2Proof Sys2Proof.Machine

/-! ### The interrupt output and the word of `INT_EN` -/

theorem irq_iff (s : State) : s.irq = true ↔ (s.done = true ∧ s.doneIe = true) ∨ (s.err = true ∧ s.errIe = true) := by
  simp only [State.irq, Bool.or_eq_true, Bool.and_eq_true]

theorem flagBit_getLsbD_zero (b : Bool) : (flagBit b).getLsbD 0 = b := by cases b <;> rfl

theorem intEnWord_doneIe (s : State) : (intEnWord s).getLsbD 0 = s.doneIe := by
  rw [intEnWord, BitVec.getLsbD_append]
  exact flagBit_getLsbD_zero _

theorem intEnWord_errIe (s : State) : (intEnWord s).getLsbD 1 = s.errIe := by
  rw [intEnWord, BitVec.getLsbD_append, BitVec.getLsbD_append]
  exact flagBit_getLsbD_zero _

/-- Bits 31:2 of `INT_EN` are reserved (R32). -/
theorem intEnWord_reserved (s : State) : (intEnWord s).extractLsb' 2 30 = 0 := by
  rw [intEnWord, BitVec.append_assoc]
  exact BitVec.extractLsb'_append_eq_left

theorem hostRead_intEn (s : State) : hostRead s .word 0x010 = (.data (intEnWord s), s) :=
  hostRead_of_plainRead s regAt_intEn rfl

/-- The enables belong to no command: the write does not ask whether the block is busy (R82). -/
theorem hostWrite_intEn (s : State) (d : Word) : hostWrite s .word 0x010 d = writeIntEn s d :=
  hostWrite_of_regAt s d regAt_intEn

/-! ### The two statements -/

/-- Settles O32: the third case of R240, which is the error entry of ILLEGAL_CMD. -/
theorem illegalWordRecordsAnError : Obligations.IllegalWordRecordsAnError := by
  intro s w why hready hw
  rw [hostWrite_cmd, writeCommand_of_illegal hready hw]
  rfl

/-- Settles O36: the level by its definition, `INT_EN` by its write and by the fields of the word a read returns. -/
theorem interruptIsALevel : Obligations.InterruptIsALevel := fun s =>
  ⟨irq_iff s, hostWrite_intEn s, intEnWord s, hostRead_intEn s,
    intEnWord_doneIe s, intEnWord_errIe s, intEnWord_reserved s⟩

end Sys2Proof.Proofs
end

section
/-! PROOFS. The decoder against the encoder, and the illegal words by name (R100, R101, R103). -/

namespace Sys2Proof.Proofs

open Sys2Proof Sys2Proof.Machine

/-- Settles O1, command by command; `RUN` with every mask is one case. -/
theorem decodeInvertsEncode : Obligations.DecodeInvertsEncode := by
  intro i
  cases i with
  | nop => exact Laws.DecodeEncode.nop
  | compose => exact Laws.DecodeEncode.compose
  | contrast => exact Laws.DecodeEncode.contrast
  | bright => exact Laws.DecodeEncode.bright
  | color => exact Laws.DecodeEncode.color
  | sharp => exact Laws.DecodeEncode.sharp
  | denoise => exact Laws.DecodeEncode.denoise
  | unsharp => exact Laws.DecodeEncode.unsharp
  | gamma => exact Laws.DecodeEncode.gamma
  | dither => exact Laws.DecodeEncode.dither
  | run operand => exact Laws.DecodeEncode.run operand
  | srst => exact Laws.DecodeEncode.srst

/-! ### The fields of a word as numbers (R100) -/

theorem opcodeField_toNat (w : Word) : (opcodeField w).toNat = w.toNat / 2 ^ 24 := by
  rw [opcodeField, extract_toNat]
  exact Nat.mod_eq_of_lt (Nat.div_lt_of_lt_mul w.isLt)

theorem operandField_toNat (w : Word) : (operandField w).toNat = w.toNat % 2 ^ 24 := by
  rw [operandField, extract_toNat, Nat.pow_zero, Nat.div_one]

theorem operandReserved_toNat (operand : BitVec 24) : (operandReserved operand).toNat = operand.toNat / 2 ^ 9 := by
  rw [operandReserved, extract_toNat]
  exact Nat.mod_eq_of_lt (Nat.div_lt_of_lt_mul operand.isLt)

theorem operandField_eq_zero_iff (w : Word) : operandField w = 0 ↔ w.toNat % 2 ^ 24 = 0 := by
  rw [← BitVec.toNat_inj, operandField_toNat]
  rfl

theorem operandReserved_eq_zero_iff (w : Word) :
    operandReserved (operandField w) = 0 ↔ w.toNat % 2 ^ 24 / 2 ^ 9 = 0 := by
  rw [← BitVec.toNat_inj, operandReserved_toNat, operandField_toNat]
  rfl

/-! ### The illegal words (R103) -/

theorem decodePlain_eq_illegal_iff {operand : BitVec 24} {i : Instr} {why : Illegal} :
    decodePlain operand i = .illegal why ↔ operand ≠ 0 ∧ why = .operandBits := by
  unfold decodePlain
  split
  · next hzero => exact iff_of_false nofun fun h => h.1 hzero
  · next hne => rw [Decoded.illegal.injEq, and_iff_right hne, eq_comm]

/-- The opcode decides by which of the two names a word can be illegal. -/
theorem decode_eq_illegal_iff (w : Word) (why : Illegal) :
    decode w = .illegal why ↔
      (why = .unknownOpcode ∧
        0x09 < (opcodeField w).toNat ∧ (opcodeField w).toNat ≠ 0x10 ∧ (opcodeField w).toNat ≠ 0x7F) ∨
      (why = .operandBits ∧
        (((opcodeField w).toNat ≤ 0x09 ∨ (opcodeField w).toNat = 0x7F) ∧ operandField w ≠ 0 ∨
          (opcodeField w).toNat = 0x10 ∧ operandReserved (operandField w) ≠ 0)) := by
  simp only [decode]
  split
  case h_11 hopc => -- `RUN`
    split
    · next hzero => simp [hopc, hzero]
    · next hne => simpa [hopc, eq_comm (b := why)] using fun _ => hne
  case h_13 => -- no legal `OPC`
    have hunknown : 0x09 < (opcodeField w).toNat ∧ (opcodeField w).toNat ≠ 0x10 ∧ (opcodeField w).toNat ≠ 0x7F := by
      simp only [imp_false] at *
      omega
    have hnot : ¬ ((opcodeField w).toNat ≤ 0x09) := by omega
    simp [hunknown, hnot, eq_comm (b := why)]
  all_goals
    next hopc => simp [decodePlain_eq_illegal_iff, hopc, and_comm]

/-- Settles O3: the two names by the opcode, the legal words by what a decoded word is. -/
theorem illegalWordsAreNamed : Obligations.IllegalWordsAreNamed := by
  intro w
  have hillegal := decode_eq_illegal_iff w
  simp only [opcodeField_toNat, ne_eq, operandField_eq_zero_iff, operandReserved_eq_zero_iff] at hillegal
  exact ⟨by simpa using hillegal .unknownOpcode, by simpa using hillegal .operandBits,
    fun i => wellFormed_and_encode_of_decode⟩

/-- Settles O4: the legal words are the encoder's, the illegal ones are of the two kinds of R103. -/
theorem decodeSampleWords : Obligations.DecodeSampleWords := by
  have hillegal (w : Word) := illegalWordsAreNamed w
  exact ⟨decodeInvertsEncode .nop rfl, decodeInvertsEncode .compose rfl, decodeInvertsEncode .sharp rfl,
    decodeInvertsEncode .gamma rfl, decodeInvertsEncode .dither rfl, decodeInvertsEncode (.run 0x181) rfl,
    decodeInvertsEncode .srst rfl, (hillegal _).1.2 (by decide), (hillegal _).2.1.2 (by decide),
    (hillegal _).2.1.2 (by decide)⟩

end Sys2Proof.Proofs
end

section
/-! PROOFS. One step by the next entry of `input`, and a whole command as its `CMD` write and engine steps (R240, R241;
log 1, log 3, log 8). -/

namespace Sys2Proof.Proofs

open Sys2Proof Sys2Proof.Machine

/-! ### A word presented on `CMD` -/

section
variable {s : State}

/-- An illegal word is presented by its `CMD` write, whatever the state (R240 cases 1 to 3). -/
theorem writeCommand_eq_presentIllegal (s : State) {w : Word} {why : Illegal} (hw : decode w = .illegal why) :
    writeCommand s w = presentIllegal s := by
  have hne : w ≠ encode .srst := by
    rintro rfl
    cases hw
  simp [writeCommand, presentIllegal, hw, hne]

theorem presentIllegal_of_ready (h : s.ready) : presentIllegal s = raiseIllegalCmd s := by
  simp [presentIllegal, h.1, h.2]

/-- No command is left running by an illegal word. -/
theorem presentIllegal_busy (hidle : s.busy = false) : (presentIllegal s).busy = false := by
  rw [presentIllegal, hidle, if_neg Bool.false_ne_true]
  split <;> exact hidle

end

/-- Settles O27: the illegal word it is, presented to a ready block. -/
theorem runWithReservedBitsIsIllegal : Obligations.RunWithReservedBitsIsIllegal := by
  intro s operand hreserved hready
  have hwf : (Instr.run operand).wellFormed = false := beq_eq_false_iff_ne.2 hreserved
  rw [exec_eq_presentIllegal s hwf, presentIllegal_of_ready hready]
  rfl

/-! ### The fused command -/

/-- A command given to an idle block is its `CMD` write and the engine's steps (R241; log 3). -/
theorem exec_eq_engineRun_write {i : Instr} {s : State} (hwf : i.wellFormed = true) (hidle : s.busy = false) :
    exec i s = engineRun commandSteps (writeCommand s (encode i)) := by
  by_cases hi : i = .srst
  · rw [hi, exec_srst_of_idle hidle, writeCommand_srst hidle, engineRun_idle _ (softReset s) rfl]
  · have hne : encode i ≠ encode .srst := fun h => hi <| by
      have hdec := decodeInvertsEncode i hwf
      rw [h, decodeInvertsEncode .srst rfl] at hdec
      exact (Decoded.instr.inj hdec).symm
    rcases Bool.eq_false_or_eq_true s.err with herr | herr
    · rw [exec_of_discarded (.inr herr) hi, writeCommand_of_err hidle herr hne, engineRun_idle _ (setOvr s) hidle]
    · rw [exec_of_ready ⟨hidle, herr⟩ hwf hi, writeCommand_of_decode ⟨hidle, herr⟩ (decodeInvertsEncode i hwf) hi]

/-- The command words of the configured machine are at the decided values those of `step` (log 8). -/
theorem commandUnder_params (w : Word) (s : State) : commandUnder params w s = runCommand w s := by
  rw [commandUnder, runCommand]
  cases hd : decode w with
  | illegal why =>
    rw [writeCommand_eq_presentIllegal s hd]
    rcases Bool.eq_false_or_eq_true s.busy with hbusy | hidle
    · rw [if_pos hbusy, presentIllegal_of_discarded (.inl hbusy)]
    · rw [if_neg (by simp [hidle])]
      exact engineRun_idle _ _ (presentIllegal_busy hidle)
  | instr i =>
    obtain ⟨hwf, rfl⟩ := wellFormed_and_encode_of_decode hd
    rcases Bool.eq_false_or_eq_true s.busy with hbusy | hidle
    · rw [if_pos hbusy]
      exact ((busyDiscardsEveryCommand s hbusy).2 i).symm
    · rw [if_neg (by simp [hidle])]
      exact (exec_eq_engineRun_write hwf hidle).symm

/-- Settles O7: the two forms of a command agree, so the two machines read every entry of `input` alike. -/
theorem commandIsWriteThenEngineSteps : Obligations.CommandIsWriteThenEngineSteps := by
  constructor
  · intro i s hwf hidle
    rw [hostWrite_cmd]
    exact exec_eq_engineRun_write hwf hidle
  · intro s
    rw [configuredStep, show commandUnder params = runCommand from funext₂ commandUnder_params]
    rfl

/-! ### The next entry of `input` -/

section
variable {s : State} {rest : List Input}

theorem step_of_command {w : Word} (h : s.input = .command w :: rest) :
    step s = runCommand w { s with input := rest } := by
  simp only [step, takeInput, nextInput, h]

theorem step_of_turn {t : Turn} (h : s.input = .turn t :: rest) : step s = takeTurn { s with input := rest } t := by
  simp only [step, takeInput, nextInput, h]

theorem step_of_wait (h : s.input = .wait :: rest) :
    step s = takeTurn { s with input := afterPoll s rest } (.read .word 0x00C) := by
  simp only [step, takeInput, nextInput, h]

theorem step_of_no_input (h : s.input = []) : step s = takeTurn s .engine := by
  simp only [step, takeInput, nextInput, h]

end

theorem hostRead_status (s : State) : hostRead s .word 0x00C = (.data (statusWord s), s) :=
  hostRead_of_plainRead s regAt_status rfl

/-- Settles O5, kind of entry by kind of entry. -/
theorem stepRunsDecodedCommand : Obligations.StepRunsDecodedCommand := by
  refine ⟨fun s w rest hin => ⟨fun i hw => ?_, fun why hw => ?_⟩, fun s t rest hin => step_of_turn hin,
    fun s rest hin => ?_, fun s => ⟨fun _ _ => rfl, fun _ _ _ => rfl, rfl⟩⟩
  · rw [step_of_command hin, runCommand, hw]
  · rw [step_of_command hin, runCommand, hw]
    by_cases hdisc : s.busy = true ∨ s.err = true
    · rw [if_pos hdisc]
      exact congrArg _ (presentIllegal_of_discarded (s := { s with input := rest }) hdisc)
    · rw [if_neg hdisc]
      have hready : s.ready := by simpa [not_or] using hdisc
      exact congrArg _ (presentIllegal_of_ready (s := { s with input := rest }) hready)
  · rw [step_of_wait hin, takeTurn, hostRead_status, afterPoll_eq]
    rfl

/-- Settles O6: the engine's turn. -/
theorem stepWithoutInputIsTheEngine : Obligations.StepWithoutInputIsTheEngine :=
  fun _ hin => step_of_no_input hin

end Sys2Proof.Proofs
end

section
/-! PROOFS. The legal states (R43 to R48, R242, R261, R267, R268): in three parts, each kept by every operation. -/

namespace Sys2Proof.Proofs

open Sys2Proof Sys2Proof.Machine

/-! ### The three parts of the invariant -/

/-- The part of the invariant over the flags, `STAGE`, `PEND` and the error fields. -/
def controlLegal (s : State) : Prop :=
  s.stage ≤ 9 ∧ s.errorFieldsLegal = true ∧ (s.busy = true ∨ s.pend = 0) ∧ (s.err = true → s.busy = false) ∧
    (s.err = true → s.done = false) ∧ (s.busy = true → s.done = false)

theorem inv_iff (s : State) : s.inv = true ↔ s.memWf = true ∧ s.pointersLegal = true ∧ controlLegal s := by
  simp only [State.inv, controlLegal, Bool.and_eq_true, Bool.or_eq_true, decide_eq_true_eq, beq_iff_eq,
    Bool.not_eq_true', Bool.and_eq_false_imp, and_assoc]

/-- The fields that part is over. -/
def controlState (s : State) : Bool × Bool × Bool × BitVec 4 × BitVec 8 × BitVec 4 × BitVec 9 :=
  (s.busy, s.done, s.err, s.stage, s.errCode, s.errStage, s.pend)

theorem controlLegal_of_controlState {s t : State} (h : controlState t = controlState s) (hs : controlLegal s) :
    controlLegal t := by
  simp only [controlState, Prod.mk.injEq] at h
  obtain ⟨hbusy, hdone, herr, hstage, hcode, herrStage, hpend⟩ := h
  simpa only [controlLegal, State.errorFieldsLegal, hbusy, hdone, herr, hstage, hcode, herrStage, hpend] using hs

theorem controlLegal_reset : controlLegal State.reset := by
  unfold controlLegal
  decide

theorem controlLegal_setOvr {s : State} (h : controlLegal s) : controlLegal (setOvr s) := h

/-- Acceptance by a ready block (R240). -/
theorem controlLegal_accept {s : State} (hready : s.ready) (h : controlLegal s) (w : Word) (stages : BitVec 9) :
    controlLegal (accept s w stages) := by
  obtain ⟨hstage, herror, -⟩ := h
  exact ⟨hstage, herror, .inl rfl, by simp [hready.2], by simp, by simp⟩

/-- Completion of a busy block with nothing pending (R242). -/
theorem controlLegal_complete {s : State} (hbusy : s.busy = true) (hpend : s.pend = 0) (h : controlLegal s) :
    controlLegal (complete s) := by
  obtain ⟨hstage, herror, -, herrBusy, -⟩ := h
  have herr : s.err = false := Bool.eq_false_iff.2 fun he => by simp [herrBusy he] at hbusy
  exact ⟨hstage, herror, .inr hpend, by simp, by simp [herr], by simp⟩

/-- ILLEGAL_CMD on an idle block (R262). -/
theorem controlLegal_raiseIllegalCmd {s : State} (hidle : s.busy = false) (h : controlLegal s) :
    controlLegal (raiseIllegalCmd s) := by
  obtain ⟨hstage, -, hpend, -⟩ := h
  exact ⟨hstage, rfl, by simpa [hidle] using hpend, by simp [hidle], by simp, by simp⟩

theorem controlLegal_writeStatus {s : State} (h : controlLegal s) (d : Word) : controlLegal (writeStatus s d) := by
  obtain ⟨hstage, herror, hpend, herrBusy, herrDone, hbusyDone⟩ := h
  rw [writeStatus_eq]
  refine ⟨hstage, ?_, hpend, fun he => herrBusy ?_, fun he => ?_, fun hb => ?_⟩
  · cases hd : d.getLsbD 2 <;> simp_all [State.errorFieldsLegal]
  all_goals simp_all

/-! ### Reset -/

/-- The reset values are legal whatever canonical rasters stay (R54). -/
theorem inv_resetRegisters {s : State} (hsrc : Mem.wf params.srcPixels s.src = true)
    (hcnv : Mem.wf params.canvasPixels s.cnv = true) (hout : Mem.wf params.canvasPixels s.out = true) :
    (resetRegisters s).inv = true := by
  have hmem : (resetRegisters s).memWf = true := by
    simp only [State.memWf, Bool.and_eq_true]
    exact ⟨⟨⟨hsrc, hcnv⟩, hout⟩, rfl⟩
  exact (inv_iff _).2 ⟨hmem, rfl, controlLegal_of_controlState rfl controlLegal_reset⟩

theorem memWf_iff (s : State) :
    s.memWf = true ↔ Mem.wf params.srcPixels s.src = true ∧ Mem.wf params.canvasPixels s.cnv = true ∧
      Mem.wf params.canvasPixels s.out = true ∧ glutWf s.glut = true := by
  simp only [State.memWf, Bool.and_eq_true, and_assoc]

theorem inv_softReset {s : State} (h : s.inv = true) : (softReset s).inv = true := by
  obtain ⟨hmem, -⟩ := (inv_iff s).1 h
  obtain ⟨hsrc, hcnv, hout, -⟩ := (memWf_iff s).1 hmem
  exact inv_resetRegisters hsrc hcnv hout

/-- A hardware reset leaves rasters with at most fewer cells listed (R300, R302). -/
theorem inv_hardReset {s : State} (h : s.inv = true) : (hardReset s).inv = true := by
  obtain ⟨hmem, -⟩ := (inv_iff s).1 h
  obtain ⟨hsrc, hcnv, hout, -⟩ := (memWf_iff s).1 hmem
  rcases hardReset_cases s with ⟨_, e⟩ | ⟨_, e⟩ | ⟨_, n, e⟩ | ⟨_, n, e⟩ <;> rw [e]
  · exact inv_resetRegisters rfl rfl rfl
  · exact inv_resetRegisters hsrc hcnv hout
  · exact inv_resetRegisters hsrc (Mem.wf_dropBelow _ n hcnv) hout
  · exact inv_resetRegisters hsrc hcnv (Mem.wf_dropBelow _ n hout)

/-- Settles O50: the reset values with no raster cell written. -/
theorem resetIsLegal : Obligations.ResetIsLegal :=
  inv_resetRegisters (s := State.reset) rfl rfl rfl

/-! ### Host transactions -/

/-- A read changes none of the fields that flags and errors are made of, but `OVR` (R80, R82). -/
theorem controlState_readReg (s : State) (r : PortReg) : controlState (readReg s r).2 = controlState s := by
  rw [readReg_frame]
  rfl

/-- Only `CMD` and `STATUS` are written with an effect on them. -/
theorem controlState_writeReg (s : State) (d : Word) {r : PortReg} (hcmd : r ≠ .cmd) (hstatus : r ≠ .status) :
    controlState (writeReg s d r) = controlState s := by
  cases r
  case cmd => exact absurd rfl hcmd
  case status => exact absurd rfl hstatus
  case id | cap | rszDim | rszOff | mean | outData | reserved | intEn => rfl
  all_goals
    simp only [writeReg, ifIdle]
    split <;> rfl

theorem inv_readReg {s : State} (h : s.inv = true) (r : PortReg) : (readReg s r).2.inv = true := by
  obtain ⟨hmem, hptr, hctl⟩ := (inv_iff s).1 h
  have hmem' : (readReg s r).2.memWf = true := by
    rw [readReg_frame]
    exact hmem
  exact (inv_iff _).2
    ⟨hmem', readReg_pointersLegal s r hptr, controlLegal_of_controlState (controlState_readReg s r) hctl⟩

theorem controlLegal_writeCommand {s : State} (h : controlLegal s) (w : Word) : controlLegal (writeCommand s w) := by
  rcases writeCommand_cases s w with
    ⟨_, e⟩ | ⟨_, _, _, e⟩ | ⟨hidle, _, _, e⟩ | ⟨_, _, e⟩ | ⟨hidle, herr, i, _, _, e⟩ <;> rw [e]
  · exact controlLegal_setOvr h
  · exact controlLegal_setOvr h
  · exact controlLegal_raiseIllegalCmd hidle h
  · exact controlLegal_of_controlState rfl controlLegal_reset
  · exact controlLegal_accept ⟨hidle, herr⟩ h w _

theorem controlLegal_writeReg {s : State} (h : controlLegal s) (d : Word) (r : PortReg) :
    controlLegal (writeReg s d r) := by
  by_cases hcmd : r = .cmd
  · rw [hcmd]
    exact controlLegal_writeCommand h d
  · by_cases hstatus : r = .status
    · rw [hstatus]
      exact controlLegal_writeStatus h d
    · exact controlLegal_of_controlState (controlState_writeReg s d hcmd hstatus) h

theorem inv_writeReg {s : State} (h : s.inv = true) (d : Word) (k : Nat) : (writeReg s d (portReg k)).inv = true := by
  obtain ⟨hmem, hptr, hctl⟩ := (inv_iff s).1 h
  exact (inv_iff _).2 ⟨writeReg_memWf s d k hmem, writeReg_pointersLegal s d _ hptr, controlLegal_writeReg hctl d _⟩

/-- A transfer is a read of an aligned word, or changes nothing (R70, R72). -/
theorem hostRead_state_cases (s : State) (width : Width) (a : Offset) :
    (hostRead s width a).2 = s ∨
      (width = .word ∧ a.toNat % 4 = 0 ∧ (hostRead s width a).2 = (readReg s (portReg (a.toNat / 4))).2) := by
  by_cases hmal : width ≠ .word ∨ a.toNat % 4 ≠ 0
  · exact .inl (by rw [(malformedTransfersChangeNothing s width a 0 hmal).1])
  · obtain ⟨rfl, halign⟩ : width = .word ∧ a.toNat % 4 = 0 := by simpa [not_or] using hmal
    exact .inr ⟨rfl, halign, by rw [hostRead_word s a halign]⟩

/-- The same of a write. -/
theorem hostWrite_cases (s : State) (width : Width) (a : Offset) (d : Word) :
    hostWrite s width a d = s ∨
      (width = .word ∧ a.toNat % 4 = 0 ∧ hostWrite s width a d = writeReg s d (portReg (a.toNat / 4))) := by
  by_cases hmal : width ≠ .word ∨ a.toNat % 4 ≠ 0
  · exact .inl (malformedTransfersChangeNothing s width a d hmal).2
  · obtain ⟨rfl, halign⟩ : width = .word ∧ a.toNat % 4 = 0 := by simpa [not_or] using hmal
    exact .inr ⟨rfl, halign, hostWrite_word s a d halign⟩

theorem inv_hostRead {s : State} (h : s.inv = true) (width : Width) (a : Offset) :
    (hostRead s width a).2.inv = true := by
  rcases hostRead_state_cases s width a with e | ⟨_, _, e⟩ <;> rw [e]
  · exact h
  · exact inv_readReg h _

theorem inv_hostWrite {s : State} (h : s.inv = true) (width : Width) (a : Offset) (d : Word) :
    (hostWrite s width a d).inv = true := by
  rcases hostWrite_cases s width a d with e | ⟨_, _, e⟩ <;> rw [e]
  · exact h
  · exact inv_writeReg h d _

/-! ### The engine -/

theorem stage_id_le (st : Stage) : st.id ≤ 9 := by cases st <;> decide

/-- Each stage raises only errors that the table gives it (R261). -/
theorem errorFieldsLegal_raiseStageError {st : Stage} {s : State} {code : ErrorCode}
    (h : runStage st { s with stage := st.id } = .error code) :
    (raiseStageError { s with stage := st.id } code st).errorFieldsLegal = true := by
  rcases runStage_error h with ⟨rfl, hcode⟩ | ⟨_, _, rfl⟩
  · rcases composeError_cases hcode with rfl | rfl | rfl | rfl <;> rfl
  · cases st <;> rfl

theorem controlLegal_raiseStageError {st : Stage} {s : State} {code : ErrorCode} (hbusy : s.busy = true)
    (h : controlLegal s) (herror : runStage st { s with stage := st.id } = .error code) :
    controlLegal (raiseStageError { s with stage := st.id } code st) := by
  obtain ⟨-, -, -, -, -, hdone⟩ := h
  exact ⟨stage_id_le st, errorFieldsLegal_raiseStageError herror, .inr rfl, fun _ => rfl, fun _ => hdone hbusy, nofun⟩

/-- A usable canvas lies inside the memories (R22, R46, R47). -/
theorem canvasCells_le {s : State} (h : s.canvasLegal = true) : s.canvasCells ≤ params.canvasPixels := by
  obtain ⟨_, _, hcells⟩ := (canvasUsable_iff s).1 h
  exact hcells

theorem ditherCells_length (s : State) : (ditherCells s.canvasRaster).length = s.canvasCells := by
  rw [ditherCells_canvasRaster, List.length_map, List.length_range]

/-- A stage writes inside its memory (R88). -/
theorem memWf_of_runStage {st : Stage} {s t : State} (h : runStage st s = .finished t) (hmem : s.memWf = true) :
    t.memWf = true := by
  obtain ⟨hsrc, hcnv, hout, hglut⟩ := (memWf_iff s).1 hmem
  rcases runStage_finished h with ⟨_, hnone, _, rfl⟩ | ⟨_, hlegal, _, rfl⟩ | ⟨_, _, hlegal, _, f, m, rfl⟩
  · obtain ⟨_, _, hlegal, -⟩ := composeError_none hnone
    refine (memWf_iff _).2 ⟨hsrc, Mem.wf_fill _ _ ?_ hcnv, hout, hglut⟩
    rw [composedCells, render_length]
    exact canvasCells_le hlegal
  · refine (memWf_iff _).2 ⟨hsrc, hcnv, Mem.wf_fill _ _ ?_ hout, hglut⟩
    rw [ditherCells_length]
    exact canvasCells_le hlegal
  · refine (memWf_iff _).2 ⟨hsrc, Mem.wf_fill _ _ ?_ hcnv, hout, hglut⟩
    rw [render_length]
    exact canvasCells_le hlegal

/-- A stage that finishes: its bit of `PEND` is cleared and `STAGE` names it (R241). -/
theorem inv_of_runStage {st : Stage} {s t : State} (hbusy : s.busy = true) (h : s.inv = true)
    (hrun : runStage st { s with stage := st.id } = .finished t) (pend : BitVec 9) :
    ({ t with pend := pend }).inv = true := by
  obtain ⟨hmem, hptr, -, herror, -, herrBusy, herrDone, hbusyDone⟩ := (inv_iff s).1 h
  have hmem' : t.memWf = true := memWf_of_runStage hrun hmem
  refine (inv_iff _).2 ⟨hmem', ?_⟩
  rw [runStage_frame hrun]
  exact ⟨hptr, stage_id_le st, herror, .inl hbusy, herrBusy, herrDone, hbusyDone⟩

theorem inv_engineStep (s t : State) (h : s.inv = true) (hbusy : s.busy = true) (hstep : engineStep s = .next t) :
    t.inv = true := by
  obtain ⟨hmem, hptr, hctl⟩ := (inv_iff s).1 h
  rcases engineStep_cases s with ⟨hpend, e⟩ | ⟨st, _, e⟩
  · cases e.symm.trans hstep
    exact (inv_iff _).2 ⟨hmem, hptr, controlLegal_complete hbusy hpend hctl⟩
  · rcases stageStep_cases s st with ⟨u, hrun, e'⟩ | ⟨code, hrun, e'⟩ | ⟨m, _, e'⟩ <;>
      cases (e.trans e').symm.trans hstep
    · exact inv_of_runStage hbusy h hrun _
    · exact (inv_iff _).2 ⟨hmem, hptr, controlLegal_raiseStageError hbusy hctl hrun⟩

/-! ### Turns, commands and steps -/

theorem inv_takeTurn {s t : State} (x : Turn) (h : s.inv = true) (hstep : takeTurn s x = .next t) : t.inv = true := by
  rcases takeTurn_cases s x with ⟨width, a, _, e⟩ | ⟨width, a, d, _, e⟩ | ⟨_, hbusy, e⟩ | ⟨_, _, e⟩ | ⟨_, e⟩
  · cases e.symm.trans hstep
    exact inv_hostRead h width a
  · cases e.symm.trans hstep
    exact inv_hostWrite h width a d
  · exact inv_engineStep s t h hbusy (e.symm.trans hstep)
  · cases e.symm.trans hstep
    exact h
  · cases e.symm.trans hstep
    exact inv_hardReset h

/-- `0x0A000000` stands for the illegal words: what is presented is the same for each. -/
theorem inv_presentIllegal {s : State} (h : s.inv = true) : (presentIllegal s).inv = true :=
  writeCommand_eq_presentIllegal (w := 0x0A000000) s rfl ▸ inv_writeReg h _ 2

theorem inv_exec {i : Instr} {s t : State} (h : s.inv = true) (hexec : exec i s = .next t) : t.inv = true := by
  rcases Bool.eq_false_or_eq_true s.busy with hbusy | hidle
  · cases ((busyDiscardsEveryCommand s hbusy).2 i).symm.trans hexec
    exact h
  · cases hwf : i.wellFormed with
    | false =>
      cases (exec_eq_presentIllegal s hwf).symm.trans hexec
      exact inv_presentIllegal h
    | true =>
      rw [exec_eq_engineRun_write hwf hidle] at hexec
      exact engineRun_keeps inv_engineStep commandSteps _ t (inv_writeReg h (encode i) 2) hexec

/-- Settles O49, by the kind of step; taking an entry off `input` is no part of the invariant. -/
theorem everyStepKeepsTheInvariant : Obligations.EveryStepKeepsTheInvariant := by
  intro s t h hstep
  rcases step_cases s with ⟨w, rest, _, e⟩ | ⟨x, rest, _, e⟩ | ⟨rest, _, e⟩ | ⟨_, e⟩ <;> rw [e] at hstep
  · have hrest : ({ s with input := rest }).inv = true := h
    rw [runCommand] at hstep
    split at hstep
    · exact inv_exec hrest hstep
    · cases hstep
      exact inv_presentIllegal hrest
  · exact inv_takeTurn (s := { s with input := rest }) x h hstep
  · exact inv_takeTurn (s := { s with input := afterPoll s rest }) _ h hstep
  · exact inv_takeTurn .engine h hstep

end Sys2Proof.Proofs
end

section
/-! PROOFS. What a step does to a recorded error (R248, R249, R271). -/

namespace Sys2Proof.Proofs

open Sys2Proof Sys2Proof.Machine

/-- The three fields an error entry writes (R268). -/
def errorRecord (s : State) : Bool × BitVec 8 × BitVec 4 := (s.err, s.errCode, s.errStage)

theorem errorRecord_of_controlState {s t : State} (h : controlState t = controlState s) :
    errorRecord t = errorRecord s := by
  simp only [controlState, Prod.mk.injEq] at h
  simp only [errorRecord, h]

theorem portReg_eq_cmd_iff (k : Nat) : portReg k = .cmd ↔ k = 2 := by
  obtain hk | hk := Nat.lt_or_ge k 0x16
  · revert k; decide
  · rw [portReg_above_ports hk]
    split <;> exact iff_of_false nofun (by omega)

/-- A host write to an idle block keeps its error, or acknowledges it, or is an `SRST` (R248, R249). -/
theorem hostWrite_keeps_error {s : State} (hidle : s.busy = false) (herr : s.err = true) (width : Width) (a : Offset)
    (d : Word) :
    errorRecord (hostWrite s width a d) = errorRecord s ∨
      (width = .word ∧ a = 0x00C ∧ d.getLsbD 2 = true) ∨ (width = .word ∧ a = 0x008 ∧ d = 0x7F000000) := by
  rcases hostWrite_cases s width a d with e | ⟨rfl, halign, e⟩ <;> rw [e]
  · exact .inl rfl
  · by_cases hcmd : portReg (a.toNat / 4) = .cmd
    · have ha : a = 0x008 := by
        have hk := (portReg_eq_cmd_iff _).1 hcmd
        bv_omega
      by_cases hd : d = encode .srst
      · exact .inr (.inr ⟨rfl, ha, hd⟩)
      · left
        rw [hcmd, writeReg, writeCommand_of_err hidle herr hd]
        rfl
    · by_cases hstatus : portReg (a.toNat / 4) = .status
      · have ha : a = 0x00C := by
          have hk := (portReg_eq_status_iff _).1 hstatus
          bv_omega
        cases hd : d.getLsbD 2 with
        | true => exact .inr (.inl ⟨rfl, ha, rfl⟩)
        | false =>
          left
          rw [hstatus, writeReg, writeStatus_eq, hd]
          simp [errorRecord]
      · exact .inl (errorRecord_of_controlState (controlState_writeReg s d hcmd hstatus))

theorem errorRecord_hostRead (s : State) (width : Width) (a : Offset) :
    errorRecord (hostRead s width a).2 = errorRecord s := by
  rcases hostRead_state_cases s width a with e | ⟨_, _, e⟩ <;> rw [e]
  exact errorRecord_of_controlState (controlState_readReg s _)

/-- A command other than `SRST` meets a recorded error and is discarded (R248). -/
theorem runCommand_keeps_error {s t : State} {w : Word} (herr : s.err = true) (hrun : runCommand w s = .next t) :
    errorRecord t = errorRecord s ∨ w = 0x7F000000 := by
  rw [runCommand] at hrun
  split at hrun
  · next i hw =>
    by_cases hi : i = .srst
    · exact .inr ((wellFormed_and_encode_of_decode hw).2.symm.trans (by rw [hi]; rfl))
    · cases (exec_of_discarded (.inr herr) hi).symm.trans hrun
      exact .inl rfl
  · cases hrun
    rw [presentIllegal_of_discarded (.inr herr)]
    exact .inl rfl

/-- What a turn does to a recorded error, which only an idle block holds (R271). -/
theorem takeTurn_keeps_error {s t : State} {x : Turn} (hidle : s.busy = false) (herr : s.err = true)
    (hturn : takeTurn s x = .next t) :
    errorRecord t = errorRecord s ∨ (∃ d, x = .write .word 0x00C d ∧ d.getLsbD 2 = true) ∨
      x = .write .word 0x008 0x7F000000 ∨ x = .hardReset := by
  rcases takeTurn_cases s x with ⟨width, a, _, e⟩ | ⟨width, a, d, rfl, e⟩ | ⟨_, hbusy, _⟩ | ⟨_, _, e⟩ | ⟨hx, _⟩
  · cases e.symm.trans hturn
    exact .inl (errorRecord_hostRead s width a)
  · cases e.symm.trans hturn
    rcases hostWrite_keeps_error hidle herr width a d with hkeep | ⟨rfl, rfl, hd⟩ | ⟨rfl, rfl, rfl⟩
    · exact .inl hkeep
    · exact .inr (.inl ⟨d, rfl, hd⟩)
    · exact .inr (.inr (.inl rfl))
  · simp [hidle] at hbusy
  · cases e.symm.trans hturn
    exact .inl rfl
  · exact .inr (.inr (.inr hx))

/-- Settles O33, by the kind of step. -/
theorem noSecondErrorBeforeAcknowledgement : Obligations.NoSecondErrorBeforeAcknowledgement := by
  intro s t hinv herr hstep
  obtain ⟨-, -, -, -, -, herrBusy, -⟩ := (inv_iff s).1 hinv
  have hidle := herrBusy herr
  have hkept : errorRecord t = errorRecord s → t.err = true ∧ t.errCode = s.errCode ∧ t.errStage = s.errStage := by
    simp [errorRecord, herr]
  rcases step_cases s with ⟨w, rest, hin, e⟩ | ⟨x, rest, hin, e⟩ | ⟨rest, _, e⟩ | ⟨_, e⟩ <;> rw [e] at hstep
  · rcases runCommand_keeps_error (s := { s with input := rest }) herr hstep with h | rfl
    · exact .inl (hkept h)
    · exact .inr (.inr (.inr (.inl ⟨rest, hin⟩)))
  · rcases takeTurn_keeps_error (s := { s with input := rest }) hidle herr hstep with h | ⟨d, rfl, hd⟩ | rfl | rfl
    · exact .inl (hkept h)
    · exact .inr (.inl ⟨d, rest, hin, hd⟩)
    · exact .inr (.inr (.inl ⟨rest, hin⟩))
    · exact .inr (.inr (.inr (.inr ⟨rest, hin⟩)))
  · rcases takeTurn_keeps_error (s := { s with input := afterPoll s rest }) hidle herr hstep with
      h | ⟨_, hx, _⟩ | hx | hx
    · exact .inl (hkept h)
    all_goals cases hx
  · rcases takeTurn_keeps_error hidle herr hstep with h | ⟨_, hx, _⟩ | hx | hx
    · exact .inl (hkept h)
    all_goals cases hx

end Sys2Proof.Proofs
end

section
/-! PROOFS. What a stage neither reads nor writes, and so what cannot disturb it (R3, R82, R83, R88, U5). -/

namespace Sys2Proof.Proofs

open Sys2Proof Sys2Proof.Machine Sys2Proof.Claims

/-! ### Changes of the state that a stage does not see -/

section
variable {s s' : State} {f : State → State}

/-- A stage over the canvas does not see a change of the state that leaves its pre-check, its snapshot and its write. -/
theorem onCanvas_map {write write' : Raster → State} (hlegal : s'.canvasLegal = s.canvasLegal)
    (hsnapshot : s'.snapshot = s.snapshot) (hwrite : ∀ P, write' P = f (write P)) :
    onCanvas s' write' = mapFinished f (onCanvas s write) := by
  rw [onCanvas, onCanvas, hlegal, hsnapshot]
  cases s.canvasLegal with
  | false => rfl
  | true =>
    cases s.snapshot with
    | none => rfl
    | some P => exact congrArg StageResult.finished (hwrite P)

/-- The same of `COMPOSE`. -/
theorem stageCompose_map (herror : composeError s' = composeError s) (hsource : s'.sourceImage = s.sourceImage)
    (hwrite : ∀ S, composeWrite s' S = f (composeWrite s S)) :
    stageCompose s' = mapFinished f (stageCompose s) := by
  rw [stageCompose, stageCompose, herror, hsource]
  cases composeError s with
  | some code => rfl
  | none =>
    cases s.sourceImage with
    | none => rfl
    | some S => exact congrArg StageResult.finished (hwrite S)

end

section
variable (st : Stage) (s : State)

/-- No stage but `DITHER` reads or writes `OUT`. -/
theorem runStage_out (h : st ≠ .dither) (o : Mem 16) :
    runStage st { s with out := o } = mapFinished (fun t => { t with out := o }) (runStage st s) := by
  cases st with
  | dither => exact absurd rfl h
  | compose => exact stageCompose_map rfl rfl fun _ => rfl
  | _ => exact onCanvas_map rfl rfl fun _ => rfl

/-- No stage but `COMPOSE` reads `SRC`, and none writes it. -/
theorem runStage_src (h : st ≠ .compose) (m : Mem 24) :
    runStage st { s with src := m } = mapFinished (fun t => { t with src := m }) (runStage st s) := by
  cases st with
  | compose => exact absurd rfl h
  | _ => exact onCanvas_map rfl rfl fun _ => rfl

end

/-! ### The host's side of the state -/

/-- `s` with other values in what a host transaction can change while `BUSY = 1` (R82). -/
def hostSide (ovr doneIe errIe : Bool) (resp : Option Response) (s : State) : State :=
  { s with ovr := ovr, doneIe := doneIe, errIe := errIe, resp := resp }

section
variable (ovr doneIe errIe : Bool) (resp : Option Response) (s : State)

theorem runStage_hostSide (st : Stage) :
    runStage st (hostSide ovr doneIe errIe resp s) = mapFinished (hostSide ovr doneIe errIe resp) (runStage st s) := by
  cases st with
  | compose => exact stageCompose_map rfl rfl fun _ => rfl
  | _ => exact onCanvas_map rfl rfl fun _ => rfl

theorem engineStep_hostSide :
    engineStep (hostSide ovr doneIe errIe resp s) = mapNext (hostSide ovr doneIe errIe resp) (engineStep s) := by
  have hpend : (hostSide ovr doneIe errIe resp s).pend = s.pend := rfl
  rw [engineStep, engineStep, hpend]
  cases lowestPending s.pend with
  | none => rfl
  | some st =>
    have hrun : runStage st { hostSide ovr doneIe errIe resp s with stage := st.id } =
        mapFinished (hostSide ovr doneIe errIe resp) (runStage st { s with stage := st.id }) :=
      runStage_hostSide ovr doneIe errIe resp { s with stage := st.id } st
    simp only [stageStep, hrun]
    cases runStage st { s with stage := st.id } <;> rfl

theorem engineRun_hostSide (n : Nat) :
    engineRun n (hostSide ovr doneIe errIe resp s) = mapNext (hostSide ovr doneIe errIe resp) (engineRun n s) := by
  induction n generalizing s with
  | zero => rfl
  | succ n ih =>
    rcases Bool.eq_false_or_eq_true s.busy with hbusy | hidle
    · rw [engineRun_succ n s hbusy, engineRun_succ n (hostSide ovr doneIe errIe resp s) hbusy, engineStep_hostSide]
      cases engineStep s with
      | next t => exact ih t
      | fault r => rfl
      | refused r => rfl
    · rw [engineRun_idle _ s hidle]
      exact engineRun_idle _ (hostSide ovr doneIe errIe resp s) hidle

end

/-- A legal busy block has no flag that a `STATUS` write clears but `OVR`. -/
theorem writeStatus_busy {s : State} (hinv : s.inv = true) (hbusy : s.busy = true) (d : Word) :
    writeStatus s d = { s with ovr := s.ovr && !d.getLsbD 3 } := by
  obtain ⟨-, -, -, herror, -, herrBusy, -, hbusyDone⟩ := (inv_iff s).1 hinv
  have herr : s.err = false := Bool.eq_false_iff.2 fun h => by simp [herrBusy h] at hbusy
  obtain ⟨hcode, hstage⟩ : s.errCode = 0 ∧ s.errStage = 0 := by simpa [State.errorFieldsLegal, herr] using herror
  have hdone := hbusyDone hbusy
  simp only [writeStatus_eq, herr, hdone, hcode, hstage, Bool.false_and, ite_self]

/-- While a command runs a host transaction reaches the host's side of the state only (R82). -/
theorem takeTurn_busy {s t : State} {x : Turn} (hinv : s.inv = true) (hbusy : s.busy = true) (hengine : x ≠ .engine)
    (hreset : x ≠ .hardReset) (h : takeTurn s x = .next t) : t = hostSide t.ovr t.doneIe t.errIe t.resp s := by
  rcases takeTurn_cases s x with ⟨width, a, _, e⟩ | ⟨width, a, d, _, e⟩ | ⟨hx, _⟩ | ⟨hx, _⟩ | ⟨hx, _⟩
  · cases e.symm.trans h
    rcases hostRead_state_cases s width a with e' | ⟨_, _, e'⟩
    · rw [e']
      rfl
    · rcases readReg_busy s (portReg (a.toNat / 4)) hbusy with e'' | e'' <;> rw [e', e''] <;> rfl
  · cases e.symm.trans h
    rcases hostWrite_cases s width a d with e' | ⟨_, _, e'⟩
    · rw [e']
      rfl
    · rcases writeReg_busy s d (portReg (a.toNat / 4)) hbusy with e'' | e'' | e'' | e'' <;> rw [e', e'']
      · rfl
      · rfl
      · rw [writeStatus_busy hinv hbusy]
        rfl
      · rfl
  · exact absurd hx hengine
  · exact absurd hx hengine
  · exact absurd hx hreset

/-- Settles O51: the transaction changes the host's side only, and the engine does not see it. -/
theorem hostCannotDisturbARunningCommand : Obligations.HostCannotDisturbARunningCommand := by
  intro s t u n x hinv hbusy hengine hreset hturn hrun
  rw [takeTurn_busy hinv hbusy hengine hreset hturn, engineRun_hostSide, hrun]
  rfl

end Sys2Proof.Proofs
end

section
/-! PROOFS. Which state a command neither reads nor changes (R3, R45, R88). -/

namespace Sys2Proof.Proofs

open Sys2Proof Sys2Proof.Machine Sys2Proof.Claims

/-! ### Memories that a stage's command does not see -/

theorem exec_commandOf_of_not_ready {s : State} (st : Stage) (h : ¬ s.ready) :
    exec (commandOf st) s = .next (setOvr s) := by
  refine exec_of_discarded ?_ (commandOf_ne_srst st)
  simpa only [State.ready, not_and_or, Bool.not_eq_false] using h

/-- A stage's command does not see a change `f` of the state that its stage does not see and that neither the flags nor
the sequencing of the command meet. -/
theorem exec_commandOf_map {st : Stage} {s : State} {f : State → State}
    (hrun : runStage st { f s with stage := st.id } = mapFinished f (runStage st { s with stage := st.id }))
    (hready : (f s).ready ↔ s.ready) (hdiscarded : setOvr (f s) = f (setOvr s))
    (hfinished : ∀ t, { f t with cur := encode (commandOf st), pend := 0, done := true, busy := false } =
      f { t with cur := encode (commandOf st), pend := 0, done := true, busy := false })
    (herror : ∀ code, raiseStageError (accept { f s with stage := st.id } (encode (commandOf st)) st.only) code st =
      f (raiseStageError (accept { s with stage := st.id } (encode (commandOf st)) st.only) code st)) :
    exec (commandOf st) (f s) = mapNext f (exec (commandOf st) s) := by
  by_cases h : s.ready
  · rw [exec_commandOf st h, exec_commandOf st (hready.2 h), hrun]
    cases runStage st { s with stage := st.id } with
    | finished t => exact congrArg Host.Outcome.next (hfinished t)
    | error code => exact congrArg Host.Outcome.next (herror code)
    | unwritten m => rfl
  · rw [exec_commandOf_of_not_ready st h, exec_commandOf_of_not_ready st (mt hready.1 h), hdiscarded]
    rfl

theorem exec_commandOf_out {st : Stage} (s : State) (o : Mem 16) (h : st ≠ .dither) :
    exec (commandOf st) { s with out := o } = mapNext (fun t => { t with out := o }) (exec (commandOf st) s) :=
  exec_commandOf_map (f := fun t => { t with out := o }) (runStage_out st { s with stage := st.id } h o) Iff.rfl rfl
    (fun _ => rfl) fun _ => rfl

theorem exec_commandOf_src {st : Stage} (s : State) (m : Mem 24) (h : st ≠ .compose) :
    exec (commandOf st) { s with src := m } = mapNext (fun t => { t with src := m }) (exec (commandOf st) s) :=
  exec_commandOf_map (f := fun t => { t with src := m }) (runStage_src st { s with stage := st.id } h m) Iff.rfl rfl
    (fun _ => rfl) fun _ => rfl

/-! ### `DITHER` -/

/-- `DITHER` given to a ready block: its error, or `OUT` from the canvas, or the model stopped (R210, R220). -/
theorem exec_dither_cases {s : State} (hready : s.ready) :
    (∃ t, exec .dither s = .next t ∧ t.cnv = s.cnv ∧ t.done = false ∧ s.canvasLegal = false) ∨
    (s.canvasLegal = true ∧ exec .dither s =
      .next { completed s 0x09000000 9 with out := s.out.fill (ditherCells s.canvasRaster) }) ∨
    (∃ r, exec .dither s = .fault r) := by
  have hcmd : exec .dither s = _ := exec_commandOf .dither hready
  rcases onCanvas_cases { s with stage := Stage.dither.id }
    fun P => { s with stage := Stage.dither.id, out := s.out.fill (ditherCells P) }
    with ⟨hlegal, e⟩ | ⟨_, _, e⟩ | ⟨hlegal, _, e⟩
  all_goals
    have hrun : runStage .dither { s with stage := Stage.dither.id } = _ := e
    rw [hrun] at hcmd
  · exact .inl ⟨_, hcmd, rfl, rfl, hlegal⟩
  · exact .inr (.inr ⟨_, hcmd⟩)
  · exact .inr (.inl ⟨hlegal, hcmd⟩)

theorem exec_dither_cnv {s t : State} (h : exec .dither s = .next t) : t.cnv = s.cnv := by
  by_cases hready : s.ready
  · rcases exec_dither_cases hready with ⟨u, e, hcnv, _⟩ | ⟨_, e⟩ | ⟨_, e⟩ <;> cases e.symm.trans h
    · exact hcnv
    · rfl
  · cases (exec_commandOf_of_not_ready .dither hready).symm.trans h
    rfl

/-- Below `W*H` a filled memory holds the new cells, whatever it held before. -/
theorem get_fill_of_lt {w : Nat} (m m' : Mem w) {vs : List (BitVec w)} {k : Nat} (h : k < vs.length) :
    (m.fill vs).get k = (m'.fill vs).get k := by
  rw [Mem.get_fill, Mem.get_fill, if_pos h, if_pos h]

/-- A `DITHER` that completes does not depend on what `OUT` held below `W*H`. -/
theorem exec_dither_out {s t u : State} {o : Mem 16} (hready : s.ready) (hs : exec .dither s = .next t)
    (ho : exec .dither { s with out := o } = .next u) (hdone : t.done = true) :
    { u with out := t.out } = t ∧ ∀ k < s.canvasCells, u.out.get k = t.out.get k := by
  rcases exec_dither_cases hready with ⟨t', e, _, hnot, _⟩ | ⟨hlegal, e⟩ | ⟨_, e⟩ <;> cases e.symm.trans hs
  · simp [hnot] at hdone
  · rcases exec_dither_cases (s := { s with out := o }) hready with ⟨_, _, _, _, hunusable⟩ | ⟨_, e'⟩ | ⟨_, e'⟩
    · exact absurd (hlegal.symm.trans hunusable) nofun
    · cases e'.symm.trans ho
      exact ⟨rfl, fun k hk => get_fill_of_lt o s.out ((ditherCells_length s).symm ▸ hk)⟩
    · cases e'.symm.trans ho

/-- Settles O52, memory by memory. -/
theorem dataFlowsForward : Obligations.DataFlowsForward := fun s o m _ =>
  ⟨exec_commandOf_out s o, exec_commandOf_src s m,
    fun _ _ hs ho => ⟨exec_dither_cnv hs, fun hdone hready => exec_dither_out hready hs ho hdone⟩⟩

/-! ### What a command may change -/

/-- `t` differs from `s` at most in the status fields, the result registers, `CUR`, `PEND`, `CNV` and `OUT`. -/
def commandFrame (s t : State) : Prop :=
  t = { s with
        busy := t.busy, done := t.done, err := t.err, ovr := t.ovr, stage := t.stage, errCode := t.errCode,
        errStage := t.errStage, newW := t.newW, newH := t.newH, offX := t.offX, offY := t.offY, mean := t.mean,
        cur := t.cur, pend := t.pend, cnv := t.cnv, out := t.out }

theorem commandFrame_trans {s t u : State} (hst : commandFrame s t) (htu : commandFrame t u) : commandFrame s u := by
  unfold commandFrame at *
  rw [htu, hst]

theorem commandFrame_presentIllegal (s : State) : commandFrame s (presentIllegal s) := by
  unfold presentIllegal
  split
  · rfl
  · split <;> rfl

theorem commandFrame_engineStep {s t : State} (h : engineStep s = .next t) : commandFrame s t := by
  rcases engineStep_cases s with ⟨_, e⟩ | ⟨st, _, e⟩
  · cases e.symm.trans h
    rfl
  · rcases stageStep_cases s st with ⟨u, hrun, e'⟩ | ⟨code, _, e'⟩ | ⟨_, _, e'⟩ <;> cases (e.trans e').symm.trans h
    · rw [runStage_frame hrun]
      rfl
    · rfl

theorem commandFrame_issue {s t : State} {w : Word} {stages : BitVec 9} (h : issue s w stages = .next t) :
    commandFrame s t := by
  rcases issue_cases s w stages with ⟨_, e⟩ | ⟨_, _, e⟩ | ⟨_, _, e⟩ <;> rw [e] at h
  · cases h
    rfl
  · cases h
    rfl
  · exact engineRun_keeps (fun u v hu _ hv => commandFrame_trans hu (commandFrame_engineStep hv)) commandSteps
      (accept s w stages) t rfl h

/-- Settles O53: the frame is one of the `CMD` write and of every engine step. -/
theorem commandsKeepOperandsAndSource : Obligations.CommandsKeepOperandsAndSource := by
  intro i s t hi h
  cases hwf : i.wellFormed with
  | false =>
    cases (exec_eq_presentIllegal s hwf).symm.trans h
    exact commandFrame_presentIllegal s
  | true =>
    rw [exec_eq_issue s hwf hi] at h
    exact commandFrame_issue h

end Sys2Proof.Proofs
end

section
/-! PROOFS. The engine step by step: the stage it takes, the error it records, the bound on its steps (R241, R250, R268,
R269). -/

namespace Sys2Proof.Proofs

open Sys2Proof Sys2Proof.Machine Sys2Proof.Claims

/-! ### One step -/

section
variable {s t : State} {st : Stage}

theorem engineStep_of_lowest (h : lowestPending s.pend = some st) : engineStep s = stageStep s st := by
  rw [engineStep, h]

theorem stageStep_of_finished (h : runStage st { s with stage := st.id } = .finished t) :
    stageStep s st = .next { t with pend := clearPending s.pend st } := by
  have hpend : t.pend = s.pend := by rw [runStage_frame h]
  rw [stageStep, h, ← hpend]

theorem stageStep_of_error {code : ErrorCode} (h : runStage st { s with stage := st.id } = .error code) :
    stageStep s st = .next (raiseStageError { s with stage := st.id } code st) := by
  rw [stageStep, h]

theorem stageStep_of_unwritten {m : Memory} (h : runStage st { s with stage := st.id } = .unwritten m) :
    stageStep s st = .fault (.unwrittenCell m) := by
  rw [stageStep, h]

end

/-- Settles O12: the lowest pending stage, by what it does. -/
theorem engineStepTakesLowestStage : Obligations.EngineStepTakesLowestStage := by
  intro s st hbit hlow
  have hstep := engineStep_of_lowest (lowestPending_eq_some.2 ⟨hbit, hlow⟩)
  refine ⟨fun t hrun => ⟨clearPending s.pend st, hstep.trans (stageStep_of_finished hrun), ?_,
    clearPending_getLsbD s.pend st⟩, fun code hrun => hstep.trans (stageStep_of_error hrun)⟩
  rw [runStage_frame hrun]

theorem errorCode_ne_zero (code : ErrorCode) : code.code ≠ 0 := by cases code <;> decide

/-- Settles O31: of the ends of an engine step only a stage's error sets `ERR`, and it is an error entry (R268). -/
theorem errorsArePrecise : Obligations.ErrorsArePrecise := by
  intro s t hnone hstep herr
  rcases engineStep_cases s with ⟨_, e⟩ | ⟨st, _, e⟩
  · cases e.symm.trans hstep
    exact absurd (hnone.symm.trans herr) nofun
  · rcases stageStep_cases s st with ⟨u, hrun, e'⟩ | ⟨code, _, e'⟩ | ⟨_, _, e'⟩ <;> cases (e.trans e').symm.trans hstep
    · have hu : u.err = s.err := by rw [runStage_frame hrun]
      exact absurd ((hu.trans hnone).symm.trans herr) nofun
    · exact ⟨rfl, errorCode_ne_zero code⟩

/-! ### The end of a command -/

/-- The engine stops with `BUSY = 0` or on an unwritten cell. -/
def endsCommand (r : Result) : Prop := (∃ t, r = .next t ∧ t.busy = false) ∨ ∃ m, r = .fault (.unwrittenCell m)

/-- One step for each pending stage and one for the completion are enough (R250). -/
theorem engineRun_ends (sts : List Stage) {s : State} (hsts : stagesOf s.pend = sts) {n : Nat} (hn : sts.length < n) :
    endsCommand (engineRun n s) := by
  induction sts generalizing s n with
  | nil =>
    obtain ⟨n, rfl⟩ := Nat.exists_eq_add_one_of_ne_zero (Nat.ne_zero_of_lt hn)
    rcases Bool.eq_false_or_eq_true s.busy with hbusy | hidle
    · exact .inl ⟨_, engineRun_complete n s hbusy ((stagesOf_eq_nil_iff _).1 hsts), rfl⟩
    · exact .inl ⟨s, engineRun_idle _ s hidle, hidle⟩
  | cons st sts ih =>
    obtain ⟨n, rfl⟩ := Nat.exists_eq_add_one_of_ne_zero (Nat.ne_zero_of_lt hn)
    obtain ⟨hlow, hrest⟩ := stagesOf_eq_cons hsts
    rcases Bool.eq_false_or_eq_true s.busy with hbusy | hidle
    · rw [engineRun_succ n s hbusy, engineStep_of_lowest hlow]
      cases hrun : runStage st { s with stage := st.id } with
      | finished t =>
        rw [stageStep_of_finished hrun]
        exact ih (s := { t with pend := clearPending s.pend st }) hrest (Nat.lt_of_succ_lt_succ hn)
      | error code =>
        rw [stageStep_of_error hrun]
        exact .inl ⟨_, engineRun_idle n _ rfl, rfl⟩
      | unwritten m =>
        rw [stageStep_of_unwritten hrun]
        exact .inr ⟨m, rfl⟩
    · exact .inl ⟨s, engineRun_idle _ s hidle, hidle⟩

/-- Settles O13: nine stages and the completion. -/
theorem commandEndsWithinTenSteps : Obligations.CommandEndsWithinTenSteps := fun s =>
  engineRun_ends _ rfl (Nat.lt_succ_of_le (stagesOf_length_le s.pend))

end Sys2Proof.Proofs
end

section
/-! PROOFS. `RUN` on a loaded image: every stage finishes (R244). -/

namespace Sys2Proof.Proofs

open Sys2Proof Sys2Proof.Machine Sys2Proof.Claims

/-! ### What a pending command needs -/

/-- What the stages pending read is there: for `COMPOSE` a source it accepts, for the others the canvas (R89, R131,
R160). -/
def loaded (s : State) : Prop :=
  canvasUsable s ∧ if s.pend.getLsbD 0 then composeError s = none ∧ s.sourceWritten else s.canvasWritten

/-- The lowest pending stage is `COMPOSE` exactly when its bit is set. -/
theorem lowestPending_compose_iff {mask : BitVec 9} {st : Stage} (h : lowestPending mask = some st) :
    st = .compose ↔ mask.getLsbD 0 = true := by
  obtain ⟨hbit, hlow⟩ := lowestPending_eq_some.1 h
  constructor
  · rintro rfl
    exact hbit
  · intro hzero
    by_contra hne
    have hpos : 0 < st.bit := Nat.pos_of_ne_zero fun h0 => hne (Stage.bit_injective h0)
    exact Bool.false_ne_true ((hlow 0 hpos).symm.trans hzero)

/-- On a loaded image the lowest pending stage finishes. -/
theorem runStage_of_loaded {s : State} {st : Stage} (h : loaded s) (hlow : lowestPending s.pend = some st) :
    ∃ t, runStage st { s with stage := st.id } = .finished t := by
  obtain ⟨husable, hread⟩ := h
  have hlegal := (canvasUsable_iff s).2 husable
  cases hrun : runStage st { s with stage := st.id } with
  | finished t => exact ⟨t, rfl⟩
  | error code =>
    rcases runStage_error hrun with ⟨hst, herror⟩ | ⟨_, hunusable, _⟩
    · rw [if_pos ((lowestPending_compose_iff hlow).1 hst)] at hread
      exact absurd (hread.1.symm.trans herror) nofun
    · exact absurd (hlegal.symm.trans hunusable) nofun
  | unwritten m =>
    rcases runStage_unwritten hrun with ⟨hst, _, hsource, _⟩ | ⟨hst, _, hcanvas, _⟩
    · rw [if_pos ((lowestPending_compose_iff hlow).1 hst)] at hread
      exact absurd hread.2 hsource
    · rw [if_neg (mt (lowestPending_compose_iff hlow).2 hst)] at hread
      exact absurd hread hcanvas

/-- A memory filled over the canvas has every canvas cell written. -/
theorem isSome_get_fill {w : Nat} (m : Mem w) {vs : List (BitVec w)} {k : Nat} (h : k < vs.length) :
    ((m.fill vs).get k).isSome := by
  rw [Mem.get_fill, if_pos h, List.getElem?_eq_getElem h]
  rfl

/-- A stage that finishes leaves a written canvas: stages 1 to 8 write all of it, `DITHER` none. -/
theorem canvasWritten_of_runStage {s t : State} {st : Stage} (h : runStage st s = .finished t) : t.canvasWritten := by
  rcases runStage_finished h with ⟨_, _, _, rfl⟩ | ⟨_, _, hwritten, rfl⟩ | ⟨_, _, _, _, f, m, rfl⟩
  · intro k hk
    rw [composeWrite_cnv, composedCells]
    exact isSome_get_fill _ (by rw [render_length]; exact hk)
  · exact hwritten
  · intro k hk
    exact isSome_get_fill _ (by rw [render_length]; exact hk)

/-- After a stage the image is loaded for the stages still pending. -/
theorem loaded_of_runStage {s t : State} {st : Stage} (h : loaded s) (hlow : lowestPending s.pend = some st)
    (hrun : runStage st { s with stage := st.id } = .finished t) :
    loaded { t with pend := clearPending s.pend st } := by
  have husable : canvasUsable t := by
    rw [runStage_frame hrun]
    exact h.1
  have hbit : (clearPending s.pend st).getLsbD 0 = false := by
    rw [clearPending_getLsbD _ _ 0 (by decide)]
    cases hzero : s.pend.getLsbD 0 with
    | false => rfl
    | true =>
      rw [(lowestPending_compose_iff hlow).2 hzero]
      rfl
  have hwritten : t.canvasWritten := canvasWritten_of_runStage hrun
  refine ⟨husable, ?_⟩
  rw [if_neg (Bool.eq_false_iff.1 hbit)]
  exact hwritten

/-! ### The run -/

/-- `t` is what the stages `sts` leave of `s`, `STAGE` naming the last of them (R241, R242, R244). -/
def ranStages (sts : List Stage) (s t : State) : Prop :=
  t = { completed s s.cur t.stage with
        cnv := t.cnv, out := t.out, newW := t.newW, newH := t.newH, offX := t.offX, offY := t.offY, mean := t.mean } ∧
  t.stage = (sts.getLast?.map Stage.id).getD s.stage ∧
  ((∀ st ∈ sts, st = .dither) → t.cnv = s.cnv) ∧ (.dither ∉ sts → t.out = s.out)

theorem ranStages_nil (s : State) (hpend : s.pend = 0) : ranStages [] s (complete s) :=
  ⟨by simp only [complete, completed, hpend], rfl, fun _ => rfl, fun _ => rfl⟩

theorem ranStages_cons {s t u : State} {st : Stage} {sts : List Stage}
    (hrun : runStage st { s with stage := st.id } = .finished t)
    (h : ranStages sts { t with pend := clearPending s.pend st } u) : ranStages (st :: sts) s u := by
  obtain ⟨hframe, hstage, hcnv, hout⟩ := h
  have ht := runStage_frame hrun
  refine ⟨?_, ?_, fun hall => ?_, fun hnone => ?_⟩
  · rw [hframe, ht]
    rfl
  · have htstage : t.stage = st.id := by rw [ht]
    rw [hstage, List.getLast?_cons]
    cases sts.getLast? <;> simp [htstage]
  · have ht' : t.cnv = s.cnv := by
      rcases runStage_finished hrun with ⟨rfl, _⟩ | ⟨_, _, _, rfl⟩ | ⟨_, hne, _⟩
      · exact absurd (hall _ List.mem_cons_self) nofun
      · rfl
      · exact absurd (hall _ List.mem_cons_self) hne
    exact (hcnv fun v hv => hall v (List.mem_cons_of_mem _ hv)).trans ht'
  · have ht' : t.out = s.out := by
      rcases runStage_finished hrun with ⟨_, _, _, rfl⟩ | ⟨rfl, _⟩ | ⟨_, _, _, _, f, m, rfl⟩
      · rfl
      · exact absurd List.mem_cons_self hnone
      · rfl
    exact (hout fun hv => hnone (List.mem_cons_of_mem _ hv)).trans ht'

/-- On a loaded image the engine runs every pending stage and completes (R244). -/
theorem engineRun_of_loaded (sts : List Stage) {s : State} (hsts : stagesOf s.pend = sts) (hbusy : s.busy = true)
    (hloaded : loaded s) {n : Nat} (hn : sts.length < n) : ∃ t, engineRun n s = .next t ∧ ranStages sts s t := by
  induction sts generalizing s n with
  | nil =>
    obtain ⟨n, rfl⟩ := Nat.exists_eq_add_one_of_ne_zero (Nat.ne_zero_of_lt hn)
    have hpend := (stagesOf_eq_nil_iff _).1 hsts
    exact ⟨_, engineRun_complete n s hbusy hpend, ranStages_nil s hpend⟩
  | cons st sts ih =>
    obtain ⟨n, rfl⟩ := Nat.exists_eq_add_one_of_ne_zero (Nat.ne_zero_of_lt hn)
    obtain ⟨hlow, hrest⟩ := stagesOf_eq_cons hsts
    obtain ⟨t, hrun⟩ := runStage_of_loaded hloaded hlow
    have htbusy : t.busy = true := by
      rw [runStage_frame hrun]
      exact hbusy
    obtain ⟨u, hu, hran⟩ := ih (s := { t with pend := clearPending s.pend st }) hrest htbusy
      (loaded_of_runStage hloaded hlow hrun) (Nat.lt_of_succ_lt_succ hn)
    rw [engineRun_succ n s hbusy, engineStep_of_lowest hlow, stageStep_of_finished hrun]
    exact ⟨u, hu, ranStages_cons hrun hran⟩

/-! ### The stages of a mask -/

theorem mem_stagesOf {mask : BitVec 9} {st : Stage} : st ∈ stagesOf mask ↔ mask.getLsbD st.bit = true := by
  simp [stagesOf, Stage.mem_all]

/-- The stages of a mask come in ascending id (R104, R244). -/
theorem stagesOf_ascending (mask : BitVec 9) : (stagesOf mask).Pairwise fun a b => a.bit < b.bit :=
  List.Pairwise.filter _ (show Stage.all.Pairwise fun a b => a.bit < b.bit by decide)

/-- The last stage of a mask is its highest. -/
theorem getLast?_stagesOf {mask : BitVec 9} {st : Stage} (hbit : mask.getLsbD st.bit = true)
    (hhigh : ∀ j < 9, st.bit < j → mask.getLsbD j = false) : (stagesOf mask).getLast? = some st := by
  have hmem := mem_stagesOf.2 hbit
  obtain ⟨below, last, hlist⟩ := (List.eq_nil_or_concat' (stagesOf mask)).resolve_left (List.ne_nil_of_mem hmem)
  have hlast : mask.getLsbD last.bit = true := mem_stagesOf.1 (by simp [hlist])
  have hascending := stagesOf_ascending mask
  rw [hlist, List.pairwise_append] at hascending
  obtain ⟨-, -, hbelowLast⟩ := hascending
  rw [hlist, List.mem_append, List.mem_singleton] at hmem
  rw [hlist, List.getLast?_concat]
  rcases hmem with hbelow | rfl
  · have hlt := hbelowLast st hbelow last List.mem_cons_self
    exact absurd ((hhigh last.bit last.bit_lt hlt).symm.trans hlast) Bool.false_ne_true
  · rfl

/-- A mask without bits 0 to 7 selects at most `DITHER`. -/
theorem eq_dither_of_mem_stagesOf {mask : BitVec 9} (hmask : mask &&& 0x0FF = 0) {st : Stage}
    (h : st ∈ stagesOf mask) : st = .dither := by
  by_contra hne
  have hlow : (0x0FF : BitVec 9).getLsbD st.bit = true := by
    cases st with
    | dither => exact absurd rfl hne
    | _ => rfl
  have hand : (mask &&& 0x0FF).getLsbD st.bit = true := by
    rw [BitVec.getLsbD_and, mem_stagesOf.1 h, hlow]
    rfl
  rw [hmask] at hand
  exact absurd (BitVec.getLsbD_zero.symm.trans hand) Bool.false_ne_true

/-- Settles O26: on the conditions given the image is loaded for the stages of the mask. -/
theorem runCompletesOnALoadedImage : Obligations.RunCompletesOnALoadedImage := by
  intro s operand hready hreserved husable hread
  have hwf : (Instr.run operand).wellFormed = true := beq_iff_eq.2 hreserved
  have hloaded : loaded (accept s (encode (.run operand)) (operandMask operand)) := by
    refine ⟨husable, ?_⟩
    rw [accept_pend]
    split at hread
    · next hbit =>
      rw [if_pos hbit]
      exact ⟨composeError_of_composeLegal hread.1, hread.2⟩
    · next hbit =>
      rw [if_neg hbit]
      exact hread
  obtain ⟨t, hrun, hframe, hstage, hcnv, hout⟩ := engineRun_of_loaded (stagesOf (operandMask operand)) rfl rfl hloaded
    (Nat.lt_succ_of_le (stagesOf_length_le _))
  refine ⟨t, (exec_of_ready hready hwf nofun).trans hrun, hframe, fun st hbit hhigh => ?_,
    fun hmask => hcnv fun _ => eq_dither_of_mem_stagesOf hmask, fun hbit => hout ?_⟩
  · rw [hstage, getLast?_stagesOf hbit hhigh]
    rfl
  · rw [mem_stagesOf, Stage.bit, hbit]
    nofun

end Sys2Proof.Proofs
end

section
/-! PROOFS. Unwritten cells: the stages stop the model, the host's reads go on (R55, R89, U1; log 4, log 5). -/

namespace Sys2Proof.Proofs

open Sys2Proof Sys2Proof.Machine Sys2Proof.Claims

/-! ### Stages -/

/-- A stage over a usable canvas with an unwritten cell stops the model (R89). -/
theorem runStage_of_unwritten_canvas {s : State} {st : Stage} (hst : st ≠ .compose) (husable : canvasUsable s)
    (hwritten : ¬ s.canvasWritten) : runStage st s = .unwritten .cnv := by
  cases hrun : runStage st s with
  | finished t =>
    rcases runStage_finished hrun with ⟨h, _⟩ | ⟨_, _, h, _⟩ | ⟨_, _, _, h, _⟩
    · exact absurd h hst
    · exact absurd h hwritten
    · exact absurd h hwritten
  | error code =>
    rcases runStage_error hrun with ⟨h, _⟩ | ⟨_, hunusable, _⟩
    · exact absurd h hst
    · exact absurd (((canvasUsable_iff s).2 husable).symm.trans hunusable) nofun
  | unwritten m =>
    rcases runStage_unwritten hrun with ⟨h, _⟩ | ⟨_, _, _, rfl⟩
    · exact absurd h hst
    · rfl

/-- `COMPOSE` with its pre-checks passed and an unwritten source cell stops the model (R89). -/
theorem runStage_of_unwritten_source {s : State} (hlegal : composeLegal s) (hwritten : ¬ s.sourceWritten) :
    runStage .compose s = .unwritten .src := by
  rw [runStage, stageCompose, composeError_of_composeLegal hlegal, sourceImage_eq_none s hwritten]

theorem exec_commandOf_of_unwritten {s : State} {st : Stage} {m : Memory} (hready : s.ready)
    (hrun : runStage st { s with stage := st.id } = .unwritten m) :
    exec (commandOf st) s = .fault (.unwrittenCell m) := by
  rw [exec_commandOf st hready, hrun]

/-! ### Data ports -/

theorem pointerOf_of_lt {ptr : Word} (h : ptr.toNat < 2 ^ 24) : pointerOf ptr = ptr := by
  rw [← pointerField_params]
  exact pointerField_of_lt h

theorem pointerAfter_of_lt {ptr : Word} (h : ptr.toNat + 1 < 2 ^ 24) : pointerAfter ptr = ptr + 1 := by
  unfold pointerAfter
  bv_omega

section
variable {w : Nat} {m : Mem w} {size i : Nat}

theorem portCell_of_unwritten (hi : i < size) (h : m.get i = none) (free : BitVec w) :
    portCell m size i free = free.setWidth 32 := by
  simp [portCell, hi, h]

theorem drawsFree_of_unwritten (hi : i < size) (h : m.get i = none) : drawsFree m size i = true := by
  simp [drawsFree, hi, h]

end

theorem countFree_true (s : State) : countFree s true = s.freeCount + 1 := rfl

/-- Settles O30, memory by memory. -/
theorem unwrittenCellsStopStagesNotReads : Obligations.UnwrittenCellsStopStagesNotReads := by
  intro s hidle
  refine ⟨fun herr husable hwritten st hst => ?_, fun herr hlegal hwritten => ?_, fun hi hnone => ?_,
    fun hi hnone => ?_, fun hi hnone => ?_⟩
  · exact exec_commandOf_of_unwritten ⟨hidle, herr⟩
      (runStage_of_unwritten_canvas (s := { s with stage := st.id }) hst husable hwritten)
  · exact exec_commandOf_of_unwritten (st := .compose) ⟨hidle, herr⟩
      (runStage_of_unwritten_source (s := { s with stage := Stage.compose.id }) hlegal hwritten)
  · refine ⟨Config.freePixel s.freeCount, ?_⟩
    rw [hostRead_srcData_idle hidle, pointerOf_of_lt (by omega), pointerAfter_of_lt (by omega),
      portCell_of_unwritten hi hnone, drawsFree_of_unwritten hi hnone, countFree_true]
  · refine ⟨Config.freePixel s.freeCount, ?_⟩
    rw [hostRead_cnvData_idle hidle, pointerOf_of_lt (by omega), pointerAfter_of_lt (by omega),
      portCell_of_unwritten hi hnone, drawsFree_of_unwritten hi hnone, countFree_true]
  · refine ⟨Config.freePacked s.freeCount, ?_⟩
    rw [hostRead_outData_idle hidle, pointerOf_of_lt (by omega), pointerAfter_of_lt (by omega),
      portCell_of_unwritten hi hnone, drawsFree_of_unwritten hi hnone, countFree_true]

end Sys2Proof.Proofs
end

section
/-! PROOFS. `BRIGHT` as a command and the blend (R163, R165). -/

namespace Sys2Proof.Proofs

open Sys2Proof.Machine Sys2Proof.Claims

/-- Settles O18, channel by channel: at the decided parameters the reference is 0 and `MEAN` stays. -/
theorem brightScalesEveryChannel : Obligations.BrightScalesEveryChannel := by
  intro s hready
  refine canvasCommand_of_mapChannels (st := .bright)
    (g := fun u P x y c => blend 0 (P.channel x y c) (factor u.bright))
    hready rfl (fun _ => rfl) (fun _ x hx y hy c => ?_) fun x y c => blendRule_range ..
  rw [canvasRaster_channel s hx hy]
  exact blend_eq_blendRule ..

/-- The factor 256 stands for 1 (R107, R163). -/
theorem blendRule_one (ref : Int) {v : Int} (h : 0 ≤ v ∧ v ≤ 255) : blendRule ref v 256 = v := by
  unfold blendRule
  omega

theorem blendRule_zero {ref : Int} (v : Int) (h : 0 ≤ ref ∧ ref ≤ 255) : blendRule ref v 0 = ref := by
  unfold blendRule
  omega

/-- Where the value is the reference the factor has nothing to scale. -/
theorem blendRule_self {ref : Int} (F : Int) (h : 0 ≤ ref ∧ ref ≤ 255) : blendRule ref ref F = ref := by
  rw [blendRule, Int.sub_self, Int.mul_zero]
  omega

/-- Settles O58: the fixed points of the rule's formula, which the blend is. -/
theorem blendInterpolates : Obligations.BlendInterpolates := by
  intro ref v F hrefLow hrefHigh hvLow hvHigh
  exact ⟨blend_eq_blendRule .., (blend_eq_blendRule ..).trans (blendRule_one ref ⟨hvLow, hvHigh⟩),
    (blend_eq_blendRule ..).trans (blendRule_zero v ⟨hrefLow, hrefHigh⟩),
    (blend_eq_blendRule ..).trans (blendRule_self F ⟨hrefLow, hrefHigh⟩)⟩

end Sys2Proof.Proofs
end

section
/-! PROOFS. The memories and the reset table (10_state.md section 6, R50). -/

namespace Sys2Proof.Proofs

open Sys2Proof.Machine

/-- Settles O60: the two rules of a single-cell write. -/
theorem memoryReadAfterWrite : Obligations.MemoryReadAfterWrite := fun m _ i v hwf hi =>
  ⟨Mem.wf_put m v hi hwf, Mem.get_put m i v⟩

theorem gamma12_length : gamma12.length = 256 := by decide +kernel

/-- The bounds of R50, entry by entry: the table is finite. -/
theorem gamma12_sixth_root :
    ∀ v < 256, (gamma12.getD v 0) ^ 6 ≤ 255 * v ^ 5 ∧ 255 * v ^ 5 < (gamma12.getD v 0 + 1) ^ 6 := by
  decide +kernel

/-- Settles O47. -/
theorem gammaTableIsTheSixthRoot : Obligations.GammaTableIsTheSixthRoot := by
  refine ⟨gamma12_length, fun v hv => ⟨gamma12.getD v 0, ?_, gamma12_sixth_root v hv⟩⟩
  rw [List.getD_eq_getElem?_getD, List.getElem?_eq_getElem (gamma12_length.symm ▸ hv)]
  rfl

end Sys2Proof.Proofs
end

section
/-! PROOFS. The words of the registers: `STATUS`, the operand registers, the reserved offsets (R21 to R27, R31, R56,
R71). -/

namespace Sys2Proof.Proofs

open Sys2Proof Sys2Proof.Machine

/-! ### `STATUS` (R31) -/

theorem flagBit_toNat (b : Bool) : (flagBit b).toNat = b.toNat := by cases b <;> rfl

/-- The word of `STATUS` as the sum of its fields at their places. -/
theorem statusWord_toNat (s : State) :
    (statusWord s).toNat = s.errStage.toNat * 2 ^ 16 + s.errCode.toNat * 2 ^ 8 + s.stage.toNat * 2 ^ 4 +
      s.ovr.toNat * 8 + s.err.toNat * 4 + s.done.toNat * 2 + s.busy.toNat := by
  simp only [statusWord, toNat_append_add, flagBit_toNat, BitVec.toNat_ofNat]
  omega

theorem extractLsb'_eq_of_toNat {d : Word} {lo len : Nat} {x : BitVec len}
    (h : d.toNat / 2 ^ lo % 2 ^ len = x.toNat) : d.extractLsb' lo len = x :=
  BitVec.eq_of_toNat_eq ((extract_toNat d lo len).trans h)

theorem getLsbD_eq_of_toNat {d : Word} {i : Nat} {b : Bool} (h : d.toNat / 2 ^ i % 2 = b.toNat) :
    d.getLsbD i = b := by
  rw [BitVec.getLsbD, Nat.testBit_eq_decide_div_mod_eq, h]
  cases b <;> rfl

/-- Settles O34, field by field of the sum. -/
theorem statusWordFields : Obligations.StatusWordFields := by
  intro s
  have hword := statusWord_toNat s
  have hbusy := s.busy.toNat_lt
  have hdone := s.done.toNat_lt
  have herr := s.err.toNat_lt
  have hovr := s.ovr.toNat_lt
  have hstage := s.stage.isLt
  have hcode := s.errCode.isLt
  have herrStage := s.errStage.isLt
  exact ⟨statusWord s, hostRead_status s, statusWord_busy s, getLsbD_eq_of_toNat (by omega),
    getLsbD_eq_of_toNat (by omega), getLsbD_eq_of_toNat (by omega), extractLsb'_eq_of_toNat (by omega),
    extractLsb'_eq_of_toNat (by omega), extractLsb'_eq_of_toNat (by omega),
    extractLsb'_eq_of_toNat (x := 0) (by change _ = 0; omega)⟩

/-! ### The operand registers (R21 to R27) -/

/-- A write of an operand register of an idle block, and the read after it. -/
theorem readBack {s : State} {a : Offset} {r : PortReg} {d e : Word} {t : State} (ha : regAt a = some r)
    (hplain : plainRead r = true) (hwrite : writeReg s d r = t) (hread : (readReg t r).1 = e) :
    hostRead (hostWrite s .word a d) .word a = (.data e, t) := by
  rw [hostWrite_of_regAt s d ha, hwrite, hostRead_of_plainRead t ha hplain, hread]

theorem halves_append (d : Word) : d.extractLsb' 16 16 ++ d.extractLsb' 0 16 = d :=
  BitVec.extractLsb'_append_extractLsb' (w := 16) (len := 16)

theorem factorWord_setWidth (d : Word) : factorWord (d.setWidth 12) = d &&& 0xFFF := by
  apply BitVec.eq_of_toNat_eq
  rw [BitVec.toNat_and, factorWord, BitVec.toNat_setWidth_of_le (by decide), BitVec.toNat_setWidth]
  exact (Nat.and_two_pow_sub_one_eq_mod d.toNat 12).symm

theorem usmWord_fields (s : State) (d : Word) :
    usmWord { s with usmAmt := d.extractLsb' 0 12, usmThr := d.extractLsb' 16 8 } = d &&& 0xFF0FFF := by
  have hfields : d.extractLsb' 24 8 ++ d.extractLsb' 16 8 ++ d.extractLsb' 12 4 ++ d.extractLsb' 0 12 = d := by
    rw [BitVec.extractLsb'_append_extractLsb'_eq_extractLsb' (show 24 = 16 + 8 from rfl),
      BitVec.extractLsb'_append_extractLsb'_eq_extractLsb' (show 16 = 12 + 4 from rfl),
      BitVec.extractLsb'_append_extractLsb'_eq_extractLsb' (show 12 = 0 + 12 from rfl)]
    exact BitVec.extractLsb'_eq_self
  calc usmWord { s with usmAmt := d.extractLsb' 0 12, usmThr := d.extractLsb' 16 8 }
      = (d.extractLsb' 24 8 ++ d.extractLsb' 16 8 ++ d.extractLsb' 12 4 ++ d.extractLsb' 0 12) &&&
          (0#8 ++ 0xFF#8 ++ 0#4 ++ 0xFFF#12) := by
        rw [BitVec.and_append, BitVec.and_append, BitVec.and_append, BitVec.and_zero, BitVec.and_zero]
        exact congrArg₂ _ (congrArg₂ _ (congrArg₂ _ rfl BitVec.and_allOnes.symm) rfl) BitVec.and_allOnes.symm
    _ = d &&& 0xFF0FFF := by
        rw [hfields]
        rfl

/-- Settles O37, register by register. -/
theorem operandRegistersReadBack : Obligations.OperandRegistersReadBack := by
  intro s d hidle
  refine ⟨readBack regAt_srcDim rfl ?_ (halves_append d), readBack regAt_cnvDim rfl ?_ (halves_append d),
    readBack regAt_contrast rfl ?_ (factorWord_setWidth d), readBack regAt_bright rfl ?_ (factorWord_setWidth d),
    readBack regAt_color rfl ?_ (factorWord_setWidth d), readBack regAt_sharp rfl ?_ (factorWord_setWidth d),
    readBack regAt_usm rfl ?_ (usmWord_fields s d)⟩
  all_goals simp only [writeReg, ifIdle_idle hidle, dimField_params]

/-! ### The reserved offsets (R56, R71) -/

theorem portReg_eq_reserved_iff (k : Nat) :
    portReg k = .reserved ↔ k = 5 ∨ (0x16 ≤ k ∧ k < 0x100) ∨ 0x200 ≤ k := by
  obtain hk | hk := Nat.lt_or_ge k 0x16
  · revert k; decide
  · rw [portReg_above_ports hk]
    split
    · exact iff_of_false nofun (by omega)
    · exact iff_of_true rfl (by omega)

/-- Settles O41: all of these offsets select the reserved item of the map. -/
theorem reservedOffsetsReadZero : Obligations.ReservedOffsetsReadZero := by
  intro s a d halign hrange
  have hreserved : portReg (a.toNat / 4) = .reserved := (portReg_eq_reserved_iff _).2 (by omega)
  rw [hostRead_word s a halign, hostWrite_word s a d halign, hreserved]
  exact ⟨rfl, rfl⟩

end Sys2Proof.Proofs
end
